-- ==== Sys2Proof/Word.lean ====
section
/-! DEFINITION. The widths of the block's words (00_scope R14). -/

namespace Sys2Proof

/-- A byte: 8 bits, unsigned (00_scope R14, R17). -/
abbrev Byte := BitVec 8

/-- A 16-bit unsigned field: offset address, payload length, point count, packed sample (R14). -/
abbrev Half := BitVec 16

/-- A 32-bit unsigned field: timestamp, raw calibration coefficient (R14). -/
abbrev Long := BitVec 32

end Sys2Proof
end

