-- ==== Sys2Proof/Config.lean ====
section
/-! DEFINITION. The two parameters the spec leaves OPEN (00_scope R12, R13; 10_state R29). They have no
body, so nothing can be proved of their values. -/

namespace Sys2Proof

/-- A value of the open type `Angle` (00_scope R13), held as a code. No definition of the model looks
inside it. DESIGN CHOICE, unsafe: the type has at most countably many values (log entry 9). -/
structure Angle where
  code : Nat
deriving DecidableEq, Repr, Inhabited

/-- The configuration parameters together, as every meaning that reads one takes them (10_state R29). -/
structure Params where
  /-- `CHECK_RESPONSE_ROUTING` (00_scope R12). -/
  checkResponseRouting : Bool
  /-- `AngleTransform`: sample index, then point count (00_scope R13; 90_conflicts C9). -/
  angleTransform : Half → Half → Angle

/-- `CHECK_RESPONSE_ROUTING`, left OPEN (00_scope R12; log entry 10). -/
opaque Config.checkResponseRouting : Bool

/-- `AngleTransform`, left OPEN (00_scope R13; log entry 9). -/
opaque Config.angleTransform : Half → Half → Angle

/-- The parameters of this block, fixed for its life (10_state R29). -/
def Config.params : Params where
  checkResponseRouting := Config.checkResponseRouting
  angleTransform := Config.angleTransform

end Sys2Proof
end

