-- ==== Sys2Proof/Syntax.lean ====
section
/-! DEFINITION. The instructions: one constructor for each row of spec/opcode_table.json, and the two
records they are written in, the packet of a wire frame and the host request. -/

namespace Sys2Proof

/-- The decoded value of a frame (00_scope R19; 40_frame_codec, opening). `cmd_known` is a function of
`cmd` (R109) and is not stored. -/
structure Packet where
  addr : Byte
  cmd : Byte
  off : Half
  payload : List Byte
deriving DecidableEq, Repr

/-- A host request: the 8-byte descriptor, field by field, and the bytes after it (30_encoding R70). -/
structure Request where
  op : Byte
  a : Byte
  b : Byte
  off : Half
  len : Half
  rsv : Byte
  payload : List Byte
deriving DecidableEq, Repr

/-- The five wire commands (41_command_catalog R131 to R135) and the eight host operations
(42_session_ops R157 to R164). A wire command carries the fields of its frame; the offset and the
payload are the host's for ISSUE, 0 and empty for a typed operation (R153). -/
inductive Instr where
  /-- GetDistance, code 0x02 (R131). -/
  | frameGetDistance (addr : Byte) (off : Half) (payload : List Byte)
  /-- Stop, code 0x0F (R132). -/
  | frameStop (addr : Byte) (off : Half) (payload : List Byte)
  /-- Acknowledge, code 0x10 (R133). -/
  | frameAcknowledge (addr : Byte) (off : Half) (payload : List Byte)
  /-- GetCorrectionCoefficients, code 0x12 (R134). -/
  | frameGetCorrectionCoefficients (addr : Byte) (off : Half) (payload : List Byte)
  /-- ConfigureAddress, code 0x16 (R135). -/
  | frameConfigureAddress (addr : Byte) (off : Half) (payload : List Byte)
  /-- ISSUE, OP 0x00 (R157). -/
  | issue (cmd : Byte) (addr : Byte) (off : Half) (payload : List Byte)
  /-- AWAIT_RESPONSE, OP 0x01 (R158). -/
  | awaitResponse
  /-- CONFIGURE_ADDRESS, OP 0x02 (R159). -/
  | configureAddress
  /-- GET_COEFFICIENTS, OP 0x03 (R160). -/
  | getCoefficients
  /-- BEGIN_STREAM, OP 0x04 (R161). -/
  | beginStream
  /-- STOP_STREAM, OP 0x05 (R162). -/
  | stopStream
  /-- RECEIVE_FRAME, OP 0x06; the operand is expectedPointCount (R163). -/
  | receiveFrame (expected : Half)
  /-- SET_DEVICE_ADDRESS, OP 0x07; the operand is the new address (R164). -/
  | setDeviceAddress (addr : Byte)
deriving DecidableEq, Repr

end Sys2Proof
end

