-- ==== Sys2Proof/WellFormed.lean ====
section
/-! DEFINITION. What the encodings can carry: a payload of at most 65535 bytes (00_scope R8). Every
other operand is exactly as wide as its field, so no other check is left. -/

namespace Sys2Proof

/-- `MAX_PAYLOAD` (00_scope R8). -/
abbrev maxPayload : Nat := 65535

/-- The payload an instruction carries, if it carries one. -/
def Instr.payload : Instr → List Byte
  | .frameGetDistance _ _ pl => pl
  | .frameStop _ _ pl => pl
  | .frameAcknowledge _ _ pl => pl
  | .frameGetCorrectionCoefficients _ _ pl => pl
  | .frameConfigureAddress _ _ pl => pl
  | .issue _ _ _ pl => pl
  | .awaitResponse => []
  | .configureAddress => []
  | .getCoefficients => []
  | .beginStream => []
  | .stopStream => []
  | .receiveFrame _ => []
  | .setDeviceAddress _ => []

/-- The payload fits the 16-bit length field (00_scope R8; 30_encoding R60, R72). -/
def Instr.wellFormed (i : Instr) : Bool :=
  decide (i.payload.length ≤ maxPayload)

end Sys2Proof
end

