-- ==== Sys2Proof/Decode.lean ====
section
/-! DEFINITION. Byte order, the checksum, the command catalog, the decoders of the two encodings (wire
frame, host request), the encoders, and the textual syntax. -/

namespace Sys2Proof

/-! ## Byte order (00_scope R15; 20_memory R43) -/

/-- `le16(b0, b1) = b0 + 256*b1` (00_scope R15). -/
def le16 (b0 b1 : Byte) : Half := BitVec.ofNat 16 (b0.toNat + 256 * b1.toNat)

/-- `le32` (00_scope R15). -/
def le32 (b0 b1 b2 b3 : Byte) : Long :=
  BitVec.ofNat 32 (b0.toNat + 256 * b1.toNat + 65536 * b2.toNat + 16777216 * b3.toNat)

/-- The low byte of a 16-bit field: `v mod 256` (00_scope R15). -/
def lowByte (v : Half) : Byte := BitVec.ofNat 8 (v.toNat % 256)

/-- The high byte of a 16-bit field: `v div 256` (00_scope R15). -/
def highByte (v : Half) : Byte := BitVec.ofNat 8 (v.toNat / 256)

/-- `bytes_le16` (00_scope R15). -/
def bytesLe16 (v : Half) : List Byte := [lowByte v, highByte v]

/-! ## The command catalog (41_command_catalog R130, R136) -/

/-- Command code of GetDistance (R130). -/
def cmdGetDistance : Byte := 0x02
/-- Command code of Stop (R130). -/
def cmdStop : Byte := 0x0F
/-- Command code of Acknowledge (R130). -/
def cmdAcknowledge : Byte := 0x10
/-- Command code of GetCorrectionCoefficients (R130). -/
def cmdGetCorrectionCoefficients : Byte := 0x12
/-- Command code of ConfigureAddress (R130). -/
def cmdConfigureAddress : Byte := 0x16

/-- `Known(c)` (R136): c is one of the five catalogued codes. -/
def known (c : Byte) : Bool :=
  c == cmdGetDistance || c == cmdStop || c == cmdAcknowledge
    || c == cmdGetCorrectionCoefficients || c == cmdConfigureAddress

/-- `cmd_known` of a decoded packet (40_frame_codec R109). -/
def Packet.cmdKnown (p : Packet) : Bool := known p.cmd

/-! ## The wire frame (30_encoding R60 to R68) -/

/-- `START_MARKER` (00_scope R10). -/
def startMarker : List Byte := [0xAA, 0xAA, 0xAA, 0xAA]

/-- `Checksum` (40_frame_codec R100): the sum over unbounded naturals, reduced once at the end. The
length bytes summed are those of N; the marker is not summed (90_conflicts C2). -/
def checksum (addr cmd : Byte) (off : Half) (payload : List Byte) : Byte :=
  BitVec.ofNat 8
    (addr.toNat + cmd.toNat + off.toNat % 256 + off.toNat / 256
      + payload.length % 256 + payload.length / 256 + (payload.map BitVec.toNat).sum)

/-- The 10 header bytes of a packet's frame (30_encoding R60). -/
def headerBytes (p : Packet) : List Byte :=
  startMarker ++ [p.addr, p.cmd] ++ bytesLe16 p.off
    ++ bytesLe16 (BitVec.ofNat 16 p.payload.length)

/-- `Encode(p)`, the bytes of the frame (40_frame_codec R101): a pure function (R102). -/
def encodePacket (p : Packet) : List Byte :=
  headerBytes p ++ p.payload ++ [checksum p.addr p.cmd p.off p.payload]

/-- Why bytes are not an instruction. The last three are the RequestErrors of 60_exceptions R236; a
truncated request is one the host has not offered whole (30_encoding R72). -/
inductive DecodeError where
  /-- Fewer bytes than the encoding needs (30_encoding R68, R72). -/
  | truncated
  /-- Bytes 0 to 3 are not the start marker (30_encoding R61). -/
  | badMarker
  /-- The checksum byte is not the sum (30_encoding R67). -/
  | badChecksum (received computed : Byte)
  /-- The command code is not catalogued (30_encoding R69, R73). -/
  | unknownCommand (cmd : Byte)
  /-- OP above 0x07 (30_encoding R73). -/
  | unknownOp (op : Byte)
  /-- A non-zero RSV byte or unused field (30_encoding R73). -/
  | reservedField (op : Byte)
deriving DecidableEq, Repr

/-- Decode on a byte list (40_frame_codec R104, R111): the packet and the bytes after its frame. The
block's own Decode, transaction by transaction, is in Machine/Transport.lean. -/
def decodePacket : List Byte → Except DecodeError (Packet × List Byte)
  | m0 :: m1 :: m2 :: m3 :: addr :: cmd :: o0 :: o1 :: l0 :: l1 :: rest =>
    if [m0, m1, m2, m3] = startMarker then
      let n := (le16 l0 l1).toNat
      let payload := rest.take n
      match rest.drop n with
      | [] => .error .truncated
      | ck :: rest' =>
        let want := checksum addr cmd (le16 o0 o1) payload
        if ck = want then .ok (⟨addr, cmd, le16 o0 o1, payload⟩, rest')
        else .error (.badChecksum ck want)
    else .error .badMarker
  | _ => .error .truncated

/-- The wire command a packet is, by its whole command byte (30_encoding R63; R130). -/
def wireInstr (p : Packet) : Except DecodeError Instr :=
  if p.cmd = cmdGetDistance then .ok (.frameGetDistance p.addr p.off p.payload)
  else if p.cmd = cmdStop then .ok (.frameStop p.addr p.off p.payload)
  else if p.cmd = cmdAcknowledge then .ok (.frameAcknowledge p.addr p.off p.payload)
  else if p.cmd = cmdGetCorrectionCoefficients then
    .ok (.frameGetCorrectionCoefficients p.addr p.off p.payload)
  else if p.cmd = cmdConfigureAddress then .ok (.frameConfigureAddress p.addr p.off p.payload)
  else .error (.unknownCommand p.cmd)

/-- The wire command at the front of a byte list. -/
def decodeWire (bs : List Byte) : Except DecodeError (Instr × List Byte) :=
  match decodePacket bs with
  | .error e => .error e
  | .ok (p, rest) =>
    match wireInstr p with
    | .error e => .error e
    | .ok i => .ok (i, rest)

/-! ## The host request (30_encoding R70 to R73) -/

/-- Takes one whole request off the front of the host port's bytes: 8 bytes, and LEN more for ISSUE
(30_encoding R70, R72). `none` while the host has not offered all of it. -/
def takeRequest : List Byte → Option (Request × List Byte)
  | op :: a :: b :: o0 :: o1 :: l0 :: l1 :: rsv :: rest =>
    let len := le16 l0 l1
    let n := if op = 0x00 then len.toNat else 0
    if n ≤ rest.length then
      some (⟨op, a, b, le16 o0 o1, len, rsv, rest.take n⟩, rest.drop n)
    else none
  | _ => none

/-- The bytes of a request (30_encoding R70). -/
def Request.bytes (r : Request) : List Byte :=
  [r.op, r.a, r.b] ++ bytesLe16 r.off ++ bytesLe16 r.len ++ [r.rsv] ++ r.payload

/-- Some field the operation does not use, or RSV, is not zero (30_encoding R70; 42_session_ops R150).
ISSUE uses A, B, OFF and LEN; RECEIVE_FRAME uses LEN; SET_DEVICE_ADDRESS uses A; the others none. -/
def Request.reservedNonzero (r : Request) : Bool :=
  r.rsv != 0
    || (r.op != 0x00 && r.op != 0x07 && r.a != 0)
    || (r.op != 0x00 && r.b != 0)
    || (r.op != 0x00 && r.off != 0)
    || (r.op != 0x00 && r.op != 0x06 && r.len != 0)

/-- The operation a request names, matched on the whole OP byte (30_encoding R71). The checks stand in
the order of 42_session_ops R150: UnknownOp, then ReservedField. The third, UnknownCommand, is ISSUE's
own (`execIssue`). -/
def decodeRequest (r : Request) : Except DecodeError Instr :=
  if 0x07 < r.op.toNat then .error (.unknownOp r.op)
  else if r.reservedNonzero then .error (.reservedField r.op)
  else if r.op = 0x00 then .ok (.issue r.a r.b r.off r.payload)
  else if r.op = 0x01 then .ok .awaitResponse
  else if r.op = 0x02 then .ok .configureAddress
  else if r.op = 0x03 then .ok .getCoefficients
  else if r.op = 0x04 then .ok .beginStream
  else if r.op = 0x05 then .ok .stopStream
  else if r.op = 0x06 then .ok (.receiveFrame r.len)
  else .ok (.setDeviceAddress r.a)

/-! ## Both encodings -/

/-- The instruction at the front of a byte list, and the bytes after it. A frame begins 0xAA, which no
host operation's OP is (30_encoding R61, R71, R73), so the first byte tells the encodings apart. -/
def decode (bs : List Byte) : Except DecodeError (Instr × List Byte) :=
  match bs with
  | [] => .error .truncated
  | b :: _ =>
    if b = 0xAA then decodeWire bs
    else
      match takeRequest bs with
      | none => .error .truncated
      | some (r, rest) =>
        match decodeRequest r with
        | .error e => .error e
        | .ok i => .ok (i, rest)

/-! ## The encoders -/

/-- A request with every field but OP zero (30_encoding R70). -/
def Request.plain (op : Byte) : Request := ⟨op, 0, 0, 0, 0, 0, []⟩

/-- The request of an ISSUE (30_encoding R70, R72). -/
def Request.issue (p : Packet) : Request :=
  ⟨0x00, p.cmd, p.addr, p.off, BitVec.ofNat 16 p.payload.length, 0, p.payload⟩

/-- The request that asks for an instruction: a host operation's own descriptor, and for a wire command
the ISSUE that sends it (30_encoding R70, R71; 41_command_catalog R130). -/
def requestOf : Instr → Request
  | .frameGetDistance addr off pl => .issue ⟨addr, cmdGetDistance, off, pl⟩
  | .frameStop addr off pl => .issue ⟨addr, cmdStop, off, pl⟩
  | .frameAcknowledge addr off pl => .issue ⟨addr, cmdAcknowledge, off, pl⟩
  | .frameGetCorrectionCoefficients addr off pl => .issue ⟨addr, cmdGetCorrectionCoefficients, off, pl⟩
  | .frameConfigureAddress addr off pl => .issue ⟨addr, cmdConfigureAddress, off, pl⟩
  | .issue cmd addr off pl => .issue ⟨addr, cmd, off, pl⟩
  | .awaitResponse => .plain 0x01
  | .configureAddress => .plain 0x02
  | .getCoefficients => .plain 0x03
  | .beginStream => .plain 0x04
  | .stopStream => .plain 0x05
  | .receiveFrame expected => ⟨0x06, 0, 0, 0, expected, 0, []⟩
  | .setDeviceAddress addr => ⟨0x07, addr, 0, 0, 0, 0, []⟩

/-- The bytes of an instruction: the frame of a wire command, the request of a host operation. -/
def encode : Instr → List Byte
  | .frameGetDistance addr off pl => encodePacket ⟨addr, cmdGetDistance, off, pl⟩
  | .frameStop addr off pl => encodePacket ⟨addr, cmdStop, off, pl⟩
  | .frameAcknowledge addr off pl => encodePacket ⟨addr, cmdAcknowledge, off, pl⟩
  | .frameGetCorrectionCoefficients addr off pl =>
    encodePacket ⟨addr, cmdGetCorrectionCoefficients, off, pl⟩
  | .frameConfigureAddress addr off pl => encodePacket ⟨addr, cmdConfigureAddress, off, pl⟩
  | .issue cmd addr off pl => (requestOf (.issue cmd addr off pl)).bytes
  | .awaitResponse => (requestOf .awaitResponse).bytes
  | .configureAddress => (requestOf .configureAddress).bytes
  | .getCoefficients => (requestOf .getCoefficients).bytes
  | .beginStream => (requestOf .beginStream).bytes
  | .stopStream => (requestOf .stopStream).bytes
  | .receiveFrame expected => (requestOf (.receiveFrame expected)).bytes
  | .setDeviceAddress addr => (requestOf (.setDeviceAddress addr)).bytes

/-! ## The numbering of spec/opcode_table.json -/

/-- The low `k` bytes of a number, least significant first. -/
def natBytes : Nat → Nat → List Byte
  | 0, _ => []
  | k + 1, v => BitVec.ofNat 8 (v % 256) :: natBytes k (v / 256)

/-- The bytes of the instruction a table word stands for. A host row's bits are the descriptor's, OP
first. A wire row's eight bits are frame byte 5, and the rest of its frame is the encoding's (marker,
zero operands, checksum). The values below 0x08 are the descriptor's: the table's numberings collide
at 0x02 (log entry 13). A word that begins 0xAA is a frame written out. -/
def tableBytes (nbits w : Nat) : List Byte :=
  let v := w % 2 ^ nbits
  if 7 < v ∧ nbits ≤ 8 ∧ known (BitVec.ofNat 8 v) then
    encodePacket ⟨0, BitVec.ofNat 8 v, 0, []⟩
  else if v % 256 = 0xAA then natBytes (11 + v / 2 ^ 64 % 65536) v
  else if v % 256 = 0x00 then natBytes (8 + v / 2 ^ 40 % 65536) v
  else natBytes 8 v

/-- The instruction the decoder reads from a table word. -/
def decodeTableWord (nbits w : Nat) : Option Instr :=
  match decode (tableBytes nbits w) with
  | .ok (i, _) => some i
  | .error _ => none

/-! ## Textual syntax (30_encoding R79, R80) -/

/-- One hexadecimal digit. -/
def hexDigit (n : Nat) : Char :=
  if n < 10 then Char.ofNat (48 + n) else Char.ofNat (55 + n)

/-- A byte as a hexadecimal pair (00_scope R15). -/
def hexByte (b : Byte) : String :=
  String.ofList [hexDigit (b.toNat / 16), hexDigit (b.toNat % 16)]

/-- A byte sequence as space-separated pairs, first byte first (00_scope R15; 30_encoding R80). -/
def hexBytes (bs : List Byte) : String := String.intercalate " " (bs.map hexByte)

/-- The name of a catalogued code, or its number (30_encoding R79). -/
def cmdText (c : Byte) : String :=
  if c = cmdGetDistance then "GetDistance"
  else if c = cmdStop then "Stop"
  else if c = cmdAcknowledge then "Acknowledge"
  else if c = cmdGetCorrectionCoefficients then "GetCorrectionCoefficients"
  else if c = cmdConfigureAddress then "ConfigureAddress"
  else "0x" ++ hexByte c

/-- An instruction in the spec's syntax: a host operation as R79 writes it, a wire command as the byte
sequence of its frame (R80). -/
def Instr.text : Instr → String
  | .frameGetDistance addr off pl => hexBytes (encode (.frameGetDistance addr off pl))
  | .frameStop addr off pl => hexBytes (encode (.frameStop addr off pl))
  | .frameAcknowledge addr off pl => hexBytes (encode (.frameAcknowledge addr off pl))
  | .frameGetCorrectionCoefficients addr off pl =>
    hexBytes (encode (.frameGetCorrectionCoefficients addr off pl))
  | .frameConfigureAddress addr off pl => hexBytes (encode (.frameConfigureAddress addr off pl))
  | .issue cmd addr off pl =>
    "ISSUE " ++ cmdText cmd ++ ", 0x" ++ hexByte addr ++ ", 0x" ++ hexByte (highByte off)
      ++ hexByte (lowByte off) ++ ", [" ++ hexBytes pl ++ "]"
  | .awaitResponse => "AWAIT_RESPONSE"
  | .configureAddress => "CONFIGURE_ADDRESS"
  | .getCoefficients => "GET_COEFFICIENTS"
  | .beginStream => "BEGIN_STREAM"
  | .stopStream => "STOP_STREAM"
  | .receiveFrame expected => "RECEIVE_FRAME " ++ toString expected.toNat
  | .setDeviceAddress addr => "SET_DEVICE_ADDRESS 0x" ++ hexByte addr

end Sys2Proof
end

