-- ==== Sys2Proof/Machine/State.lean ====
section
/-! DEFINITION. The block's state (10_state R20) and, beside it, the inputs and outputs of its two ports.
Everything is plain data. -/

namespace Sys2Proof.Machine

/-- The session mode, `MODE` (10_state R21). -/
inductive Mode where
  /-- Encoded 0. -/
  | idle
  /-- Encoded 1. -/
  | streaming
deriving DecidableEq, Repr

/-- The sequencer phase, `PHASE` (10_state R23). -/
inductive Phase where
  /-- No operation in progress; a request is accepted only here. -/
  | ready
  /-- The request is being validated. -/
  | check
  /-- A `TxWrite` is outstanding. -/
  | tx
  /-- `RxRead(10)` is outstanding. -/
  | rxHeader
  /-- `RxRead(DECL_LEN)` is outstanding. -/
  | rxPayload
  /-- `RxRead(1)` is outstanding. -/
  | rxChecksum
  /-- A decoded packet is being interpreted. -/
  | interpret
deriving DecidableEq, Repr

/-- The 10 header bytes of the frame being decoded, `HDR`, by their place in the frame (10_state R25;
30_encoding R60). -/
structure Header where
  m0 : Byte
  m1 : Byte
  m2 : Byte
  m3 : Byte
  addr : Byte
  cmd : Byte
  off0 : Byte
  off1 : Byte
  len0 : Byte
  len1 : Byte
deriving DecidableEq, Repr

/-- A byte buffer (20_memory R40): (address, byte) pairs in one canonical form, addresses strictly
rising and no byte equal to `Memory.unlisted`. -/
abbrev Memory := List Host.Cell

/-- What an unlisted byte of a buffer reads as. The spec leaves it unspecified and never read
(20_memory R41, R42). DESIGN CHOICE, unsafe (log entry 8). -/
abbrev Memory.unlisted : Byte := 0

/-- The transaction a TransportError happened at (60_exceptions R234). -/
inductive Transaction where
  | tx
  | rxHeader
  | rxPayload
  | rxChecksum
deriving DecidableEq, Repr

/-- The block's errors, each with its info fields (60_exceptions R231 to R236). -/
inductive ErrorInfo where
  /-- FramingError: the four bytes observed (R231). -/
  | framing (o0 o1 o2 o3 : Byte)
  /-- ChecksumError (R232). -/
  | checksum (received computed : Byte)
  /-- ProtocolError, SUB 1 (R233). -/
  | badAddressPattern (reported : Byte)
  /-- ProtocolError, SUB 2 (R233). DESIGN CHOICE, unsafe: R233 gives `expected` 17 bits and the values up
  to 131074, which need 18; the values are kept, and 18 bits hold them (log entry 19). -/
  | unexpectedPayloadLength (actual : Half) (expected : BitVec 18)
  /-- ProtocolError, SUB 3 (R233). -/
  | pointCountMismatch (actual expected : Half)
  /-- ProtocolError, SUB 4; `none` is the spec's NONE (R233). -/
  | routingMismatch (gotAddr gotCmd : Byte) (expAddr : Option Byte) (expCmd : Byte)
  /-- TransportError, whose info is empty; the transaction is its SUB (R234). -/
  | transport (at_ : Transaction)
  /-- StateError (R235). -/
  | stateError (op : Byte) (mode : Mode)
  /-- RequestError, SUB 1 (R236). -/
  | unknownOp (op : Byte)
  /-- RequestError, SUB 2 (R236). -/
  | unknownCommand (cmd : Byte)
  /-- RequestError, SUB 3 (R236). -/
  | reservedField (op : Byte)
deriving DecidableEq, Repr

/-- One distance sample of a RECEIVE_FRAME result (30_encoding R75). -/
structure Sample where
  index : Half
  distance : BitVec 9
  confidence : BitVec 7
  angle : Angle
deriving DecidableEq, Repr

/-- The `RESULT` fields of each operation (30_encoding R75). -/
inductive Result where
  /-- ISSUE, BEGIN_STREAM, STOP_STREAM, SET_DEVICE_ADDRESS: no field. -/
  | empty
  /-- AWAIT_RESPONSE. -/
  | packet (deviceAddress commandCode : Byte) (cmdKnown : Bool) (offsetAddress payloadLength : Half)
      (payload : List Byte)
  /-- CONFIGURE_ADDRESS. -/
  | deviceCount (n : Byte)
  /-- GET_COEFFICIENTS: raw coefficients (43_payload_decoders R202). -/
  | coefficients (k0 k1 b0 b1 : Long) (points : Half)
  /-- RECEIVE_FRAME. -/
  | distanceFrame (timestamp : Long) (count : Half) (samples : List Sample)
deriving DecidableEq, Repr

/-- A host response (30_encoding R74): `info` is present only when `status` is not 0, `result` only
when it is. -/
structure Response where
  status : Byte
  sub : Byte
  info : Option ErrorInfo
  result : Option Result
deriving DecidableEq, Repr

/-- What the transport does about the outstanding transaction in one step (20_memory R46, R47; log entry
2). -/
inductive Answer where
  /-- It carries the transaction out whole. -/
  | complete
  /-- TransportError; `moved` is the unspecified count of bytes it took or sent, cut to the
  transaction's length where it is larger (20_memory R48; 93_implementation_defined U6). -/
  | fail (moved : Nat)
  /-- It does not answer yet: the step ends there (20_memory R46 (c), R47 (c)). -/
  | silent
deriving DecidableEq, Repr

/-- The platform's reset input at one step (70_reset R260, R261). -/
inductive PlatformInput where
  /-- Reset is not asserted. -/
  | run
  /-- Reset is applied. `latched`: in READY, the block had already latched the request offered to it;
  `moved`: the unspecified count of bytes an outstanding transaction took or sent (R261). -/
  | reset (latched : Bool) (moved : Nat)
deriving DecidableEq, Repr

/-- The block's state (10_state R20), and the model's own fields for what lies at its two ports. -/
structure State where
  /-- `MODE` (10_state R21). -/
  mode : Mode
  /-- `DEV_ADDR` (10_state R22). -/
  devAddr : Byte
  /-- `PHASE` (10_state R23). -/
  phase : Phase
  /-- `REQ` (10_state R24). -/
  req : Request
  /-- `HDR` (10_state R25). -/
  hdr : Header
  /-- `DECL_LEN` (10_state R25). -/
  declLen : Half
  /-- `RX_CK` (10_state R25). -/
  rxCk : Byte
  /-- `CALC_CK` (10_state R25). -/
  calcCk : Byte
  /-- `TXBUF` (20_memory R41). -/
  txbuf : Memory
  /-- `RXPAY` (20_memory R42). -/
  rxpay : Memory
  /-- Model's own: the transport's unread byte stream, first byte first, with the bytes still to come
  (10_state R30). -/
  rxStream : List Byte
  /-- Model's own: what the transport does about the block's transactions, an entry for each
  step that begins with one outstanding (log entry 2). -/
  answers : List Answer
  /-- Model's own: the bytes put on the link so far (20_memory R47). -/
  link : List Byte
  /-- Model's own: the bytes of the requests the host offers and the block has not accepted
  (30_encoding R70; 42_session_ops R165). -/
  hostIn : List Byte
  /-- Model's own: the responses returned so far (30_encoding R74). Nothing reads it (10_state R27). -/
  hostOut : List Response
  /-- Model's own: the platform's reset input at the steps to come; empty means not asserted. -/
  platform : List PlatformInput
deriving DecidableEq, Repr

/-- The ways the machine stops. No error of the block is among them: those are responses (60_exceptions
R237). -/
inductive Fault where
  /-- Raised by `send` for a frame longer than TXBUF (20_memory R41: addresses 0 to 65545). Only an
  instruction that is not well-formed has one. Safe: the model stops (log entry 14). -/
  | outsideTxbuf
deriving DecidableEq, Repr

/-- The ways the machine has no meaning to give. -/
inductive Refusal where
  /-- Raised by an arm of `exec` whose instruction is not modelled. Safe. No arm raises it. -/
  | notModelled (mnemonic : String)
  /-- Raised by `step` where PHASE is TX and TXBUF holds no frame of a catalogued command. Safe: no run
  reaches it (log entry 15). -/
  | noWireFrame
deriving DecidableEq, Repr

/-- The outcome of a meaning. -/
abbrev Out := Host.Outcome State Fault Refusal

/-- The machine right after reset (70_reset R260). MODE, DEV_ADDR and PHASE are the spec's; the others
are unspecified there (log entries 7 and 8). -/
def State.reset : State where
  mode := .idle
  devAddr := 0x01
  phase := .ready
  req := ⟨0, 0, 0, 0, 0, 0, []⟩
  hdr := ⟨0, 0, 0, 0, 0, 0, 0, 0, 0, 0⟩
  declLen := 0
  rxCk := 0
  calcCk := 0
  txbuf := []
  rxpay := []
  rxStream := []
  answers := []
  link := []
  hostIn := []
  hostOut := []
  platform := []

end Sys2Proof.Machine
end

