-- ==== Sys2Proof/Machine/Flags.lean ====
section
/-! DEFINITION. The block has no flags register (10_state R27). What an operation reports stands in the
response's STATUS and SUB; this file computes them, and the legality table by mode. -/

namespace Sys2Proof.Machine

/-- The one-bit encoding of `MODE` (10_state R21). -/
def Mode.bit : Mode → BitVec 1
  | .idle => 0
  | .streaming => 1

/-- `STATUS` of an error (60_exceptions R230). -/
def ErrorInfo.status : ErrorInfo → Byte
  | .framing _ _ _ _ => 1
  | .checksum _ _ => 2
  | .badAddressPattern _ => 3
  | .unexpectedPayloadLength _ _ => 3
  | .pointCountMismatch _ _ => 3
  | .routingMismatch _ _ _ _ => 3
  | .transport _ => 4
  | .stateError _ _ => 5
  | .unknownOp _ => 6
  | .unknownCommand _ => 6
  | .reservedField _ => 6

/-- `SUB` of a TransportError (60_exceptions R234). -/
def Transaction.sub : Transaction → Byte
  | .tx => 1
  | .rxHeader => 2
  | .rxPayload => 3
  | .rxChecksum => 4

/-- `SUB` of an error (60_exceptions R231 to R236). -/
def ErrorInfo.sub : ErrorInfo → Byte
  | .framing _ _ _ _ => 0
  | .checksum _ _ => 0
  | .badAddressPattern _ => 1
  | .unexpectedPayloadLength _ _ => 2
  | .pointCountMismatch _ _ => 3
  | .routingMismatch _ _ _ _ => 4
  | .transport t => t.sub
  | .stateError _ _ => 0
  | .unknownOp _ => 1
  | .unknownCommand _ => 2
  | .reservedField _ => 3

/-- The success response (30_encoding R74). -/
def Response.ok (r : Result) : Response := ⟨0, 0, none, some r⟩

/-- The error response (30_encoding R74; 60_exceptions R237 step 3). -/
def Response.error (e : ErrorInfo) : Response := ⟨e.status, e.sub, some e, none⟩

/-- The RequestError a request that names no operation gets (42_session_ops R150). The other reasons a
decoder has do not arise for a latched request. -/
def requestError (op : Byte) : DecodeError → ErrorInfo
  | .unknownOp op => .unknownOp op
  | .reservedField op => .reservedField op
  | .unknownCommand cmd => .unknownCommand cmd
  | .truncated => .reservedField op
  | .badMarker => .reservedField op
  | .badChecksum _ _ => .reservedField op

/-- The legality of sending a wire command by mode, the ISSUE row of 42_session_ops R151: anything in
Idle, only Stop in Streaming. -/
def sendLegal (m : Mode) (cmd : Byte) : Bool :=
  match m with
  | .idle => true
  | .streaming => cmd == cmdStop

end Sys2Proof.Machine
end

