-- ==== Sys2Proof/Machine/Operands.lean ====
section
/-! DEFINITION. Operand forms: the fields of a received header, and the fields the payload decoders read
at their offsets (30_encoding R60, R76, R77). -/

namespace Sys2Proof.Machine

/-- HDR from the bytes of an `RxRead(10)` (40_frame_codec R104). -/
def Header.ofBytes (bs : List Byte) : Header :=
  ⟨bs.getD 0 0, bs.getD 1 0, bs.getD 2 0, bs.getD 3 0, bs.getD 4 0, bs.getD 5 0,
    bs.getD 6 0, bs.getD 7 0, bs.getD 8 0, bs.getD 9 0⟩

/-- Bytes 0 to 3 of the header (30_encoding R61). -/
def Header.marker (h : Header) : List Byte := [h.m0, h.m1, h.m2, h.m3]

/-- The offset address (30_encoding R64). -/
def Header.off (h : Header) : Half := le16 h.off0 h.off1

/-- The declared payload length (30_encoding R65; 10_state R25). -/
def Header.declLen (h : Header) : Half := le16 h.len0 h.len1

/-- The header a packet's frame begins with (30_encoding R60). -/
def Header.ofPacket (p : Packet) : Header := Header.ofBytes (headerBytes p)

/-- The 16-bit field at an offset of a payload (20_memory R43, R44). -/
def half (pl : List Byte) (at_ : Nat) : Half := le16 (pl.getD at_ 0) (pl.getD (at_ + 1) 0)

/-- The 32-bit field at an offset of a payload (20_memory R43, R44). -/
def long (pl : List Byte) (at_ : Nat) : Long :=
  le32 (pl.getD at_ 0) (pl.getD (at_ + 1) 0) (pl.getD (at_ + 2) 0) (pl.getD (at_ + 3) 0)

/-- The distance of a packed sample, `v[15:7]` (43_payload_decoders R205). -/
def sampleDistance (v : Half) : BitVec 9 := BitVec.ofNat 9 (v.toNat / 128)

/-- The confidence of a packed sample, `v[6:0]` (43_payload_decoders R205). -/
def sampleConfidence (v : Half) : BitVec 7 := BitVec.ofNat 7 (v.toNat % 128)

end Sys2Proof.Machine
end

