-- ==== Sys2Proof/Machine/Ops.lean ====
section
/-! DEFINITION. The named operations over the buffers and the registers, taking an error, returning a
response, and reset. -/

namespace Sys2Proof.Machine

/-! ## The buffers (20_memory R40 to R42) -/

/-- TXBUF holds 65546 bytes (20_memory R41; 00_scope R9). -/
abbrev txbufSize : Nat := 65546

/-- RXPAY holds 65535 bytes (20_memory R42; 00_scope R8). -/
abbrev rxpaySize : Nat := 65535

/-- The byte at an address (00_scope R16, `MemRead` of one byte). -/
def Memory.read (m : Memory) (a : Nat) : Byte := (m.lookup a).getD Memory.unlisted

/-- The cells of consecutive bytes, in canonical form: an unlisted byte is left out. -/
def Memory.cells : Nat → List Byte → Memory
  | _, [] => []
  | a, b :: bs =>
    if b = Memory.unlisted then Memory.cells (a + 1) bs else (a, b) :: Memory.cells (a + 1) bs

/-- Writes consecutive bytes from an address on, and nothing else (00_scope R16, `MemWrite` byte by
byte). -/
def Memory.writeBytes (m : Memory) (a : Nat) (bs : List Byte) : Memory :=
  m.filter (fun c => decide (c.1 < a)) ++ Memory.cells a bs
    ++ m.filter (fun c => decide (a + bs.length ≤ c.1))

/-- Reads `n` consecutive bytes from an address on. -/
def Memory.readBytes (m : Memory) (a n : Nat) : List Byte :=
  (List.range n).map fun i => m.read (a + i)

/-- The canonical form: addresses strictly rising, and no entry an unlisted byte. -/
def Memory.wf : Memory → Bool
  | [] => true
  | [c] => c.2 != Memory.unlisted
  | c :: d :: m => c.2 != Memory.unlisted && decide (c.1 < d.1) && Memory.wf (d :: m)

/-- Every listed address is below a buffer's size. -/
def Memory.below (m : Memory) (size : Nat) : Bool := m.all fun c => decide (c.1 < size)

/-! ## The registers -/

/-- `PHASE <- p` (00_scope R16). -/
def State.setPhase (s : State) (p : Phase) : State := { s with phase := p }

/-- Accepting a request: it is latched into REQ and PHASE becomes CHECK (42_session_ops R165). -/
def State.latch (s : State) (r : Request) (rest : List Byte) : State :=
  { s with req := r, hostIn := rest, phase := .check }

/-- SET_DEVICE_ADDRESS's write, the only one to DEV_ADDR (10_state R22). -/
def State.setDevAddr (s : State) (a : Byte) : State := { s with devAddr := a }

/-- Encode's write of the whole frame to TXBUF from address 0, and `PHASE <- TX` (40_frame_codec R101;
42_session_ops R154). -/
def State.loadTx (s : State) (f : List Byte) : State :=
  { s with txbuf := s.txbuf.writeBytes 0 f, phase := .tx }

/-- `HDR <- h` (40_frame_codec R104). -/
def State.loadHeader (s : State) (h : Header) : State := { s with hdr := h }

/-- `DECL_LEN <- n` (40_frame_codec R104). -/
def State.loadDeclLen (s : State) (n : Half) : State := { s with declLen := n }

/-- The payload's write to RXPAY (40_frame_codec R104; 20_memory R42). -/
def State.loadPayload (s : State) (pl : List Byte) : State :=
  { s with rxpay := s.rxpay.writeBytes 0 pl }

/-- `RX_CK` and `CALC_CK` (40_frame_codec R104). -/
def State.loadChecksums (s : State) (received computed : Byte) : State :=
  { s with rxCk := received, calcCk := computed }

/-- The mode transition after a frame with this command has been written (42_session_ops R152). -/
def State.modeTransition (s : State) (cmd : Byte) : State :=
  { s with
    mode := if cmd = cmdGetDistance then .streaming
            else if cmd = cmdStop then .idle
            else s.mode }

/-- The payload of the frame being decoded: RXPAY bytes 0 to DECL_LEN - 1 (20_memory R42). -/
def State.rxPayloadBytes (s : State) : List Byte := s.rxpay.readBytes 0 s.declLen.toNat

/-- The packet Decode returns (40_frame_codec R104), read from HDR and RXPAY (10_state R31). -/
def State.packet (s : State) : Packet := ⟨s.hdr.addr, s.hdr.cmd, s.hdr.off, s.rxPayloadBytes⟩

/-- The frame in TXBUF: bytes 0 to 10+N, with N from bytes 8 and 9 (20_memory R41; 30_encoding R60). -/
def State.txFrame (s : State) : List Byte :=
  s.txbuf.readBytes 0 (11 + (le16 (s.txbuf.read 8) (s.txbuf.read 9)).toNat)

/-! ## Responses and errors -/

/-- Ending an operation: the one host response, and `PHASE <- READY` (42_session_ops R165). -/
def State.respond (s : State) (r : Response) : State :=
  { s with hostOut := s.hostOut ++ [r], phase := .ready }

/-- Taking an error (60_exceptions R237): every effect already made stands, the error response is
returned, PHASE becomes READY, and nothing is saved anywhere else. The next request then starts as any
other: the block has no handler and no return instruction (60_exceptions R239). -/
def State.raiseError (s : State) (e : ErrorInfo) : State := s.respond (Response.error e)

/-- Ending an operation with success, the return beside `raiseError` (00_scope R16, `return v`). -/
def State.respondOk (s : State) (r : Result) : State := s.respond (Response.ok r)

/-! ## Reset (70_reset R260 to R262) -/

/-- The effect an abandoned transaction may have had on the link and the stream: some of its bytes, as
many as `moved` says, at most all (70_reset R261; 20_memory R48). -/
def State.abandon (s : State) (moved : Nat) : State :=
  match s.phase with
  | .tx => { s with link := s.link ++ s.txFrame.take moved }
  | .rxHeader => { s with rxStream := s.rxStream.drop (min moved 10) }
  | .rxPayload => { s with rxStream := s.rxStream.drop (min moved s.declLen.toNat) }
  | .rxChecksum => { s with rxStream := s.rxStream.drop (min moved 1) }
  | .ready => s
  | .check => s
  | .interpret => s

/-- Every register at its reset value; the two ports as they stand: nothing is sent, drained or
answered (70_reset R260, R262). -/
def State.resetRegisters (s : State) : State :=
  { State.reset with
    rxStream := s.rxStream, answers := s.answers, link := s.link
    hostIn := s.hostIn, hostOut := s.hostOut, platform := s.platform }

/-- In READY with a whole request offered, the request is accepted; otherwise nothing (42_session_ops
R165). -/
def State.accept (s : State) : State :=
  match s.phase, takeRequest s.hostIn with
  | .ready, some (r, rest) => s.latch r rest
  | _, _ => s

/-- Reset applied by the platform, at any time (70_reset R260, R261). -/
def State.applyReset (s : State) (latched : Bool) (moved : Nat) : State :=
  if latched then (s.accept.abandon moved).resetRegisters else (s.abandon moved).resetRegisters

end Sys2Proof.Machine
end

