-- ==== Sys2Proof/Machine/Transport.lean ====
section
/-! DEFINITION. Transport transactions, and the SEND and RECV procedures over them. A transaction is issued
in one step, which ends there, and answered in a later one (00_scope R7; 20_memory R52; log entry 1). -/

namespace Sys2Proof.Machine

/-- How far a procedure of an operation gets within one step. -/
inductive Flow (α : Type) where
  /-- It ran through, with this value. -/
  | run (a : α) (s : State)
  /-- It waits: the transaction PHASE names is outstanding, just issued or not yet answered (00_scope R7;
  70_reset R266). -/
  | wait (s : State)
  /-- It raised this error (60_exceptions R237). -/
  | err (e : ErrorInfo) (s : State)
  /-- The model stops. -/
  | stop (f : Fault)

/-- One procedure, then another on its value; an error, a wait or a stop ends both (00_scope R16). -/
def Flow.bind {α β : Type} (x : Flow α) (f : α → State → Flow β) : Flow β :=
  match x with
  | .run a s => f a s
  | .wait s => .wait s
  | .err e s => .err e s
  | .stop g => .stop g

/-- The outcome of an operation's step: the response it ends with, or the state it waits in. -/
def Flow.finish (x : Flow Result) : Out :=
  match x with
  | .run r s => .next (s.respondOk r)
  | .wait s => .next s
  | .err e s => .next (s.raiseError e)
  | .stop f => .fault f

/-! ## Transactions (20_memory R46 to R49) -/

/-- `TxWrite(f)` (20_memory R47): all of it on the link, or a prefix and a TransportError, or no
answer. -/
def txWrite (f : List Byte) (s : State) : Flow Unit :=
  match s.answers with
  | .complete :: as => .run () { s with answers := as, link := s.link ++ f }
  | .fail moved :: as =>
    .err (.transport .tx) { s with answers := as, link := s.link ++ f.take moved }
  | .silent :: as => .wait { s with answers := as }
  | [] => .wait s

/-- `RxRead(n)` (20_memory R46): the next n bytes, or a TransportError that took up to n of them, or no
answer. A read of more bytes than will ever come is never answered with them. -/
def rxRead (at_ : Transaction) (n : Nat) (s : State) : Flow (List Byte) :=
  match s.answers with
  | .complete :: as =>
    if n ≤ s.rxStream.length then
      .run (s.rxStream.take n) { s with answers := as, rxStream := s.rxStream.drop n }
    else .wait s
  | .fail moved :: as =>
    .err (.transport at_) { s with answers := as, rxStream := s.rxStream.drop (min moved n) }
  | .silent :: as => .wait { s with answers := as }
  | [] => .wait s

/-! ## SEND (42_session_ops R154) -/

/-- The outstanding TxWrite of a packet's frame, and the mode transition once it completes. -/
def sendWrite (p : Packet) (s : State) : Flow Unit :=
  (txWrite (encodePacket p) s).bind fun _ s => .run () (s.modeTransition p.cmd)

/-- Encode into TXBUF and the issue of one TxWrite, which ends the step; in TX, the answer to that
TxWrite. -/
def send (p : Packet) (s : State) : Flow Unit :=
  if (encodePacket p).length ≤ txbufSize then
    if s.phase = .tx then sendWrite p s else .wait (s.loadTx (encodePacket p))
  else .stop .outsideTxbuf

/-! ## RECV: Decode over transactions (42_session_ops R155; 40_frame_codec R104) -/

/-- The answer to the header read: HDR, the marker check, DECL_LEN, and the issue of the next read, the
payload's where DECL_LEN is not 0. -/
def recvHeader (s : State) : Flow Packet :=
  (rxRead .rxHeader 10 s).bind fun bs s =>
    let h := Header.ofBytes bs
    if h.marker = startMarker then
      .wait (((s.loadHeader h).loadDeclLen h.declLen).setPhase
        (if h.declLen = 0 then .rxChecksum else .rxPayload))
    else .err (.framing h.m0 h.m1 h.m2 h.m3) (s.loadHeader h)

/-- The answer to the payload read: RXPAY, and the issue of the checksum read. -/
def recvPayload (s : State) : Flow Packet :=
  (rxRead .rxPayload s.declLen.toNat s).bind fun bs s =>
    .wait ((s.loadPayload bs).setPhase .rxChecksum)

/-- The answer to the checksum read: the comparison, `PHASE <- INTERPRET`, and the packet. -/
def recvChecksum (s : State) : Flow Packet :=
  (rxRead .rxChecksum 1 s).bind fun bs s =>
    let received := bs.getD 0 0
    let computed := checksum s.hdr.addr s.hdr.cmd s.hdr.off s.rxPayloadBytes
    if received = computed then
      .run s.packet ((s.loadChecksums received computed).setPhase .interpret)
    else .err (.checksum received computed) (s.loadChecksums received computed)

/-- RECV: the answer to the read PHASE names; where none is outstanding, the issue of the header
read. -/
def recv (s : State) : Flow Packet :=
  match s.phase with
  | .rxHeader => recvHeader s
  | .rxPayload => recvPayload s
  | .rxChecksum => recvChecksum s
  | .interpret => .run s.packet s
  | .ready => .wait (s.setPhase .rxHeader)
  | .check => .wait (s.setPhase .rxHeader)
  | .tx => .wait (s.setPhase .rxHeader)

/-- The operation is past its checks and its SEND: PHASE is one of RECV's (42_session_ops R166). -/
def State.receiving (s : State) : Bool :=
  match s.phase with
  | .rxHeader => true
  | .rxPayload => true
  | .rxChecksum => true
  | .interpret => true
  | .ready => false
  | .check => false
  | .tx => false

end Sys2Proof.Machine
end

