-- ==== Sys2Proof/Machine/Payload.lean ====
section
/-! DEFINITION. The routing check and the payload decoders (42_session_ops R156; 43_payload_decoders). The
decoders are pure: a value or the ProtocolError they raise (R207). -/

namespace Sys2Proof.Machine

/-- `CheckRouting(p, c_exp, a_exp)` (42_session_ops R156); `none` is NONE. -/
def routingError (P : Params) (p : Packet) (cExp : Byte) (aExp : Option Byte) : Option ErrorInfo :=
  if P.checkResponseRouting && (p.cmd != cExp || (aExp != none && aExp != some p.addr)) then
    some (.routingMismatch p.addr p.cmd aExp cExp)
  else none

/-- `AddressCount(a)` (43_payload_decoders R200). -/
def addressCount (a : Byte) : Except ErrorInfo Result :=
  if a = 0x01 then .ok (.deviceCount 1)
  else if a = 0x03 then .ok (.deviceCount 2)
  else if a = 0x07 then .ok (.deviceCount 3)
  else .error (.badAddressPattern a)

/-- `DecodeCalibration(pl)` (43_payload_decoders R201). -/
def decodeCalibration (pl : List Byte) : Except ErrorInfo Result :=
  if pl.length = 18 then
    .ok (.coefficients (long pl 0) (long pl 4) (long pl 8) (long pl 12) (half pl 16))
  else .error (.unexpectedPayloadLength (BitVec.ofNat 16 pl.length) 18)

/-- The architected value of a coefficient, the exact rational `raw / 10000` of the unsigned raw value
(43_payload_decoders R202; 90_conflicts C1). -/
def coefficientValue (raw : Long) : Rat := (raw.toNat : Rat) / 10000

/-- Sample n of a distance payload of `count` samples (43_payload_decoders R203, R205, R206). -/
def distanceSample (P : Params) (pl : List Byte) (count n : Nat) : Sample where
  index := BitVec.ofNat 16 n
  distance := sampleDistance (half pl (4 + 2 * n))
  confidence := sampleConfidence (half pl (4 + 2 * n))
  angle := P.angleTransform (BitVec.ofNat 16 n) (BitVec.ofNat 16 count)

/-- `DecodeDistance(pl, expected)` (43_payload_decoders R203): the length check first, then the count. The
length reported is `4 + 2*expected`, never wrapped (60_exceptions R233; log entry 19). -/
def decodeDistance (P : Params) (pl : List Byte) (expected : Half) : Except ErrorInfo Result :=
  if pl.length < 4 ∨ (pl.length - 4) % 2 ≠ 0 then
    .error (.unexpectedPayloadLength (BitVec.ofNat 16 pl.length)
      (BitVec.ofNat 18 (4 + 2 * expected.toNat)))
  else
    let count := (pl.length - 4) / 2
    if count ≠ expected.toNat then
      .error (.pointCountMismatch (BitVec.ofNat 16 count) expected)
    else
      .ok (.distanceFrame (long pl 0) (BitVec.ofNat 16 count)
        ((List.range count).map (distanceSample P pl count)))

/-- Interpreting a response: the routing check, then the decoder (42_session_ops R159, R160, R163). -/
def interpretWith (P : Params) (cExp : Byte) (aExp : Option Byte)
    (decoder : Packet → Except ErrorInfo Result) (p : Packet) (s : State) : Flow Result :=
  match routingError P p cExp aExp with
  | some e => .err e s
  | none =>
    match decoder p with
    | .ok r => .run r s
    | .error e => .err e s

/-- AWAIT_RESPONSE's result: the packet, unchecked (42_session_ops R158). -/
def packetResult (p : Packet) : Result :=
  .packet p.addr p.cmd p.cmdKnown p.off (BitVec.ofNat 16 p.payload.length) p.payload

/-- What CONFIGURE_ADDRESS does with its response (42_session_ops R159). -/
def interpretAddress (P : Params) (p : Packet) (s : State) : Flow Result :=
  interpretWith P cmdConfigureAddress none (fun p => addressCount p.addr) p s

/-- What GET_COEFFICIENTS does with its response (42_session_ops R160). -/
def interpretCalibration (P : Params) (p : Packet) (s : State) : Flow Result :=
  interpretWith P cmdGetCorrectionCoefficients (some s.devAddr)
    (fun p => decodeCalibration p.payload) p s

/-- What RECEIVE_FRAME does with its response (42_session_ops R163). -/
def interpretDistance (P : Params) (expected : Half) (p : Packet) (s : State) : Flow Result :=
  interpretWith P cmdGetDistance (some s.devAddr)
    (fun p => decodeDistance P p.payload expected) p s

end Sys2Proof.Machine
end

