-- ==== Sys2Proof/Machine/Wire.lean ====
section
/-! DEFINITION. The five wire commands (41_command_catalog R131 to R135). A wire command's meaning is the
send procedure of the operation that emits it, and then what that operation, the one in REQ, does next
(41_command_catalog, opening; log entry 12). -/

namespace Sys2Proof.Machine

/-- What the operation in REQ does once its frame is written: CONFIGURE_ADDRESS and GET_COEFFICIENTS
receive, the others return (42_session_ops R166). -/
def afterSend (P : Params) (s : State) : Flow Result :=
  if s.req.op = 0x02 then (recv s).bind (interpretAddress P)
  else if s.req.op = 0x03 then (recv s).bind (interpretCalibration P)
  else .run .empty s

/-- Sending one frame for the operation in REQ: the mode check, SEND, and the rest of the operation. -/
def sendFrame (P : Params) (p : Packet) (s : State) : Flow Result :=
  if sendLegal s.mode p.cmd then (send p s).bind fun _ s => afterSend P s
  else .err (.stateError s.req.op s.mode) s

/-- GetDistance (41_command_catalog R131). -/
def execFrameGetDistance (addr : Byte) (off : Half) (payload : List Byte) (s : State) : Out :=
  (sendFrame Config.params ⟨addr, cmdGetDistance, off, payload⟩ s).finish

/-- Stop (41_command_catalog R132). -/
def execFrameStop (addr : Byte) (off : Half) (payload : List Byte) (s : State) : Out :=
  (sendFrame Config.params ⟨addr, cmdStop, off, payload⟩ s).finish

/-- Acknowledge (41_command_catalog R133). -/
def execFrameAcknowledge (addr : Byte) (off : Half) (payload : List Byte) (s : State) : Out :=
  (sendFrame Config.params ⟨addr, cmdAcknowledge, off, payload⟩ s).finish

/-- GetCorrectionCoefficients (41_command_catalog R134). -/
def execFrameGetCorrectionCoefficients (addr : Byte) (off : Half) (payload : List Byte) (s : State) :
    Out :=
  (sendFrame Config.params ⟨addr, cmdGetCorrectionCoefficients, off, payload⟩ s).finish

/-- ConfigureAddress (41_command_catalog R135). -/
def execFrameConfigureAddress (addr : Byte) (off : Half) (payload : List Byte) (s : State) : Out :=
  (sendFrame Config.params ⟨addr, cmdConfigureAddress, off, payload⟩ s).finish

end Sys2Proof.Machine
end

