-- ==== Sys2Proof/Machine/Session.lean ====
section
/-! DEFINITION. The eight host operations (42_session_ops R157 to R164). Each begins with the checks of
R150 (done by the decoder, but for ISSUE's own) and R151; an operation that receives goes on from the
transaction it waited on. -/

namespace Sys2Proof.Machine

/-- The mode check of 42_session_ops R151, for an operation legal in one mode only. -/
def requireMode (m : Mode) (op : Byte) (s : State) : Flow Unit :=
  if s.mode = m then .run () s else .err (.stateError op s.mode) s

/-- ISSUE (42_session_ops R157): UnknownCommand (R150), then the mode check (R151), then SEND. -/
def issueFlow (cmd addr : Byte) (off : Half) (payload : List Byte) (s : State) : Flow Result :=
  if known cmd then
    if sendLegal s.mode cmd then (send ⟨addr, cmd, off, payload⟩ s).bind fun _ s => .run .empty s
    else .err (.stateError 0x00 s.mode) s
  else .err (.unknownCommand cmd) s

/-- AWAIT_RESPONSE (42_session_ops R158). -/
def awaitFlow (s : State) : Flow Result :=
  (if s.receiving then .run () s else requireMode .idle 0x01 s).bind fun _ s =>
    (recv s).bind fun p s => .run (packetResult p) s

/-- CONFIGURE_ADDRESS (42_session_ops R159): sent to address 0. -/
def configureAddressFlow (P : Params) (s : State) : Flow Result :=
  (if s.receiving then .run () s
    else (requireMode .idle 0x02 s).bind fun _ s => send ⟨0x00, cmdConfigureAddress, 0, []⟩ s).bind
      fun _ s => (recv s).bind (interpretAddress P)

/-- GET_COEFFICIENTS (42_session_ops R160): sent to DEV_ADDR. -/
def getCoefficientsFlow (P : Params) (s : State) : Flow Result :=
  (if s.receiving then .run () s
    else (requireMode .idle 0x03 s).bind fun _ s =>
      send ⟨s.devAddr, cmdGetCorrectionCoefficients, 0, []⟩ s).bind
      fun _ s => (recv s).bind (interpretCalibration P)

/-- BEGIN_STREAM (42_session_ops R161). -/
def beginStreamFlow (s : State) : Flow Result :=
  (requireMode .idle 0x04 s).bind fun _ s =>
    (send ⟨s.devAddr, cmdGetDistance, 0, []⟩ s).bind fun _ s => .run .empty s

/-- STOP_STREAM (42_session_ops R162): legal in both modes. -/
def stopStreamFlow (s : State) : Flow Result :=
  (send ⟨s.devAddr, cmdStop, 0, []⟩ s).bind fun _ s => .run .empty s

/-- RECEIVE_FRAME (42_session_ops R163): legal in Streaming only. -/
def receiveFrameFlow (P : Params) (expected : Half) (s : State) : Flow Result :=
  (if s.receiving then .run () s else requireMode .streaming 0x06 s).bind fun _ s =>
    (recv s).bind (interpretDistance P expected)

/-- SET_DEVICE_ADDRESS (42_session_ops R164): no transaction. -/
def setDeviceAddressFlow (addr : Byte) (s : State) : Flow Result :=
  (requireMode .idle 0x07 s).bind fun _ s => .run .empty (s.setDevAddr addr)

/-- ISSUE (42_session_ops R157). -/
def execIssue (cmd addr : Byte) (off : Half) (payload : List Byte) (s : State) : Out :=
  (issueFlow cmd addr off payload s).finish

/-- AWAIT_RESPONSE (42_session_ops R158). -/
def execAwaitResponse (s : State) : Out := (awaitFlow s).finish

/-- CONFIGURE_ADDRESS (42_session_ops R159). -/
def execConfigureAddress (s : State) : Out := (configureAddressFlow Config.params s).finish

/-- GET_COEFFICIENTS (42_session_ops R160). -/
def execGetCoefficients (s : State) : Out := (getCoefficientsFlow Config.params s).finish

/-- BEGIN_STREAM (42_session_ops R161). -/
def execBeginStream (s : State) : Out := (beginStreamFlow s).finish

/-- STOP_STREAM (42_session_ops R162). -/
def execStopStream (s : State) : Out := (stopStreamFlow s).finish

/-- RECEIVE_FRAME (42_session_ops R163). -/
def execReceiveFrame (expected : Half) (s : State) : Out :=
  (receiveFrameFlow Config.params expected s).finish

/-- SET_DEVICE_ADDRESS (42_session_ops R164). -/
def execSetDeviceAddress (addr : Byte) (s : State) : Out := (setDeviceAddressFlow addr s).finish

end Sys2Proof.Machine
end

