-- ==== Sys2Proof/Machine/Dispatch.lean ====
section
/-! DEFINITION. The meaning of every instruction, one arm each. -/

namespace Sys2Proof.Machine

def exec (i : Instr) (s : State) : Host.Outcome State Fault Refusal :=
  match i with
  | .frameGetDistance addr off payload => Sys2Proof.Machine.execFrameGetDistance addr off payload s
  | .frameStop addr off payload => Sys2Proof.Machine.execFrameStop addr off payload s
  | .frameAcknowledge addr off payload => Sys2Proof.Machine.execFrameAcknowledge addr off payload s
  | .frameGetCorrectionCoefficients addr off payload => Sys2Proof.Machine.execFrameGetCorrectionCoefficients addr off payload s
  | .frameConfigureAddress addr off payload => Sys2Proof.Machine.execFrameConfigureAddress addr off payload s
  | .issue cmd addr off payload => Sys2Proof.Machine.execIssue cmd addr off payload s
  | .awaitResponse => Sys2Proof.Machine.execAwaitResponse s
  | .configureAddress => Sys2Proof.Machine.execConfigureAddress s
  | .getCoefficients => Sys2Proof.Machine.execGetCoefficients s
  | .beginStream => Sys2Proof.Machine.execBeginStream s
  | .stopStream => Sys2Proof.Machine.execStopStream s
  | .receiveFrame expected => Sys2Proof.Machine.execReceiveFrame expected s
  | .setDeviceAddress addr => Sys2Proof.Machine.execSetDeviceAddress addr s

end Sys2Proof.Machine
end

