-- ==== Sys2Proof/Machine/Fetch.lean ====
section
/-! DEFINITION. Where a step finds its instruction, and how a word is put there. -/

namespace Sys2Proof.Machine

/-- The operation in REQ: the instruction its request names, or the RequestError it gets (42_session_ops
R150). -/
def State.requested (s : State) : Except ErrorInfo Instr :=
  match decodeRequest s.req with
  | .ok i => .ok i
  | .error e => .error (requestError s.req.op e)

/-- The wire command whose frame TXBUF holds (20_memory R41). -/
def State.outgoing (s : State) : Option Instr :=
  match decodeWire s.txFrame with
  | .ok (i, _) => some i
  | .error _ => none

/-- The bytes of an instruction placed where the next step fetches it: a frame in TXBUF, its TxWrite
outstanding for an ISSUE of it; a request at the front of the host port, in READY. Reset is not
asserted. -/
def State.placeBytes (s : State) (bs : List Byte) : State :=
  match decodeWire bs with
  | .ok (i, _) =>
    { s with phase := .tx, req := requestOf i, txbuf := s.txbuf.writeBytes 0 bs, platform := [] }
  | .error _ => { s with phase := .ready, hostIn := bs ++ s.hostIn, platform := [] }

end Sys2Proof.Machine
end

