-- ==== Sys2Proof/Machine/Step.lean ====
section
/-! DEFINITION. One step of the machine: a platform reset, or the block going on from its phase until it
has issued one transaction or returned one response (00_scope R7; log entry 1). -/

namespace Sys2Proof.Machine

/-- Runs the operation in REQ: a request that names none gets its RequestError (42_session_ops R150). -/
def runRequest (s : State) : Out :=
  match s.requested with
  | .ok i => exec i s
  | .error e => .next (s.raiseError e)

/-- Runs the wire command in TXBUF. -/
def runOutgoing (s : State) : Out :=
  match s.outgoing with
  | some i => exec i s
  | none => .refused .noWireFrame

/-- The block's step, reset not asserted. In READY it accepts a whole request and runs it; with none
offered it stays as it is (42_session_ops R165). In TX the instruction is the frame being written; in
the other phases it is the operation in REQ. -/
def blockStep (s : State) : Out :=
  match s.phase with
  | .ready =>
    match takeRequest s.hostIn with
    | none => .next s
    | some (r, rest) => runRequest (s.latch r rest)
  | .tx => runOutgoing s
  | .check => runRequest s
  | .rxHeader => runRequest s
  | .rxPayload => runRequest s
  | .rxChecksum => runRequest s
  | .interpret => runRequest s

/-- One step: the platform's input first (70_reset R260). -/
def step (s : State) : Host.Outcome State Fault Refusal :=
  match s.platform with
  | [] => blockStep s
  | .run :: ps => blockStep { s with platform := ps }
  | .reset latched moved :: ps => .next (State.applyReset { s with platform := ps } latched moved)

/-- `s` with the instruction of a table word where `step` fetches next. -/
def State.withFetchWord (s : State) (nbits w : Nat) : State := s.placeBytes (tableBytes nbits w)

end Sys2Proof.Machine
end

