-- ==== Sys2Proof/Safety.lean ====
section
/-! DEFINITION. The words the statements use: the mode table of 42_session_ops R151, the states a
completed SEND or RECV leaves, and the invariant of a run. -/

namespace Sys2Proof.Machine

/-! ## Operations and modes -/

/-- A host operation, as against a wire command. -/
def isHostOp : Instr → Bool
  | .frameGetDistance _ _ _ => false
  | .frameStop _ _ _ => false
  | .frameAcknowledge _ _ _ => false
  | .frameGetCorrectionCoefficients _ _ _ => false
  | .frameConfigureAddress _ _ _ => false
  | .issue _ _ _ _ => true
  | .awaitResponse => true
  | .configureAddress => true
  | .getCoefficients => true
  | .beginStream => true
  | .stopStream => true
  | .receiveFrame _ => true
  | .setDeviceAddress _ => true

/-- The table of 42_session_ops R151 for host operations. A wire command follows the ISSUE that sends
it. -/
def modeAllows : Mode → Instr → Bool
  | m, .frameGetDistance _ _ _ => m == .idle
  | _, .frameStop _ _ _ => true
  | m, .frameAcknowledge _ _ _ => m == .idle
  | m, .frameGetCorrectionCoefficients _ _ _ => m == .idle
  | m, .frameConfigureAddress _ _ _ => m == .idle
  | m, .issue cmd _ _ _ => m == .idle || cmd == 0x0F
  | m, .awaitResponse => m == .idle
  | m, .configureAddress => m == .idle
  | m, .getCoefficients => m == .idle
  | m, .beginStream => m == .idle
  | _, .stopStream => true
  | m, .receiveFrame _ => m == .streaming
  | m, .setDeviceAddress _ => m == .idle

/-! ## Completed procedures -/

/-- The packet an instruction sends (42_session_ops R157, R159 to R162; 41_command_catalog R131 to
R135). -/
def State.packetSent (s : State) : Instr → Option Packet
  | .frameGetDistance addr off pl => some ⟨addr, cmdGetDistance, off, pl⟩
  | .frameStop addr off pl => some ⟨addr, cmdStop, off, pl⟩
  | .frameAcknowledge addr off pl => some ⟨addr, cmdAcknowledge, off, pl⟩
  | .frameGetCorrectionCoefficients addr off pl => some ⟨addr, cmdGetCorrectionCoefficients, off, pl⟩
  | .frameConfigureAddress addr off pl => some ⟨addr, cmdConfigureAddress, off, pl⟩
  | .issue cmd addr off pl => some ⟨addr, cmd, off, pl⟩
  | .awaitResponse => none
  | .configureAddress => some ⟨0x00, cmdConfigureAddress, 0, []⟩
  | .getCoefficients => some ⟨s.devAddr, cmdGetCorrectionCoefficients, 0, []⟩
  | .beginStream => some ⟨s.devAddr, cmdGetDistance, 0, []⟩
  | .stopStream => some ⟨s.devAddr, cmdStop, 0, []⟩
  | .receiveFrame _ => none
  | .setDeviceAddress _ => none

/-- The state right after the outstanding TxWrite of a packet's frame completed, `as` being the answers
left (42_session_ops R152, R154). -/
def State.written (s : State) (p : Packet) (as : List Answer) : State :=
  { s with
    link := s.link ++ encodePacket p
    answers := as
    mode := if p.cmd = 0x02 then .streaming else if p.cmd = 0x0F then .idle else s.mode }

/-- The state right after a whole SEND of a packet: its frame in TXBUF, its TxWrite completed
(42_session_ops R154). -/
def State.sent (s : State) (p : Packet) (as : List Answer) : State :=
  { s.written p as with phase := .tx, txbuf := s.txbuf.writeBytes 0 (encodePacket p) }

/-- The state right after RECV has decoded a packet, `rest` being the bytes left in the stream and `as`
the answers left (42_session_ops R155; 40_frame_codec R104). -/
def State.received (s : State) (p : Packet) (rest : List Byte) (as : List Answer) : State :=
  { s with
    phase := .interpret
    hdr := ⟨0xAA, 0xAA, 0xAA, 0xAA, p.addr, p.cmd, lowByte p.off, highByte p.off,
      lowByte (BitVec.ofNat 16 p.payload.length), highByte (BitVec.ofNat 16 p.payload.length)⟩
    declLen := BitVec.ofNat 16 p.payload.length
    rxCk := checksum p.addr p.cmd p.off p.payload
    calcCk := checksum p.addr p.cmd p.off p.payload
    rxpay := s.rxpay.writeBytes 0 p.payload
    rxStream := rest
    answers := as }

/-- The answers a Decode of this packet's frame takes when every read completes: two reads, or three
where there is a payload (40_frame_codec R104). -/
def readAnswers (p : Packet) : List Answer :=
  if p.payload = [] then [.complete, .complete] else [.complete, .complete, .complete]

/-- A transaction is outstanding (10_state R23; 70_reset R266). -/
def State.waiting (s : State) : Bool :=
  match s.phase with
  | .tx => true
  | .rxHeader => true
  | .rxPayload => true
  | .rxChecksum => true
  | .ready => false
  | .check => false
  | .interpret => false

/-- The operation has issued no transaction yet: it stands before its checks (42_session_ops R150,
R166). -/
def State.starting (s : State) : Bool :=
  match s.phase with
  | .ready => true
  | .check => true
  | .tx => false
  | .rxHeader => false
  | .rxPayload => false
  | .rxChecksum => false
  | .interpret => false

/-- The place of a phase in the order an operation goes through them (10_state R23; 42_session_ops
R166). -/
def Phase.rank : Phase → Nat
  | .ready => 0
  | .check => 1
  | .tx => 2
  | .rxHeader => 3
  | .rxPayload => 4
  | .rxChecksum => 5
  | .interpret => 6

/-! ## Responses to a decoded packet -/

/-- AWAIT_RESPONSE's response (30_encoding R75; 42_session_ops R158). -/
def packetResponse (p : Packet) : Response :=
  ⟨0, 0, none, some (.packet p.addr p.cmd (known p.cmd) p.off (BitVec.ofNat 16 p.payload.length)
    p.payload)⟩

/-- CONFIGURE_ADDRESS's response: routing, then the address pattern (42_session_ops R156, R159;
43_payload_decoders R200). -/
def addressResponse (P : Params) (p : Packet) : Response :=
  if P.checkResponseRouting = true ∧ p.cmd ≠ 0x16 then
    ⟨3, 4, some (.routingMismatch p.addr p.cmd none 0x16), none⟩
  else if p.addr = 0x01 then ⟨0, 0, none, some (.deviceCount 1)⟩
  else if p.addr = 0x03 then ⟨0, 0, none, some (.deviceCount 2)⟩
  else if p.addr = 0x07 then ⟨0, 0, none, some (.deviceCount 3)⟩
  else ⟨3, 1, some (.badAddressPattern p.addr), none⟩

/-- GET_COEFFICIENTS's response, `a` being DEV_ADDR: routing, then the length (42_session_ops R156, R160;
43_payload_decoders R201). -/
def calibrationResponse (P : Params) (a : Byte) (p : Packet) : Response :=
  let b (k : Nat) : Byte := p.payload.getD k 0
  if P.checkResponseRouting = true ∧ (p.cmd ≠ 0x12 ∨ p.addr ≠ a) then
    ⟨3, 4, some (.routingMismatch p.addr p.cmd (some a) 0x12), none⟩
  else if p.payload.length ≠ 18 then
    ⟨3, 2, some (.unexpectedPayloadLength (BitVec.ofNat 16 p.payload.length) 18), none⟩
  else
    ⟨0, 0, none, some (.coefficients
      (le32 (b 0) (b 1) (b 2) (b 3)) (le32 (b 4) (b 5) (b 6) (b 7))
      (le32 (b 8) (b 9) (b 10) (b 11)) (le32 (b 12) (b 13) (b 14) (b 15)) (le16 (b 16) (b 17)))⟩

/-- RECEIVE_FRAME's response, `a` being DEV_ADDR: routing, then the length, then the count
(42_session_ops R156, R163; 43_payload_decoders R203; the expected length: log entry 19). -/
def distanceResponse (P : Params) (a : Byte) (expected : Half) (p : Packet) : Response :=
  let n := p.payload.length
  let count := (n - 4) / 2
  let b (k : Nat) : Byte := p.payload.getD k 0
  let v (k : Nat) : Nat := (b (4 + 2 * k)).toNat + 256 * (b (5 + 2 * k)).toNat
  if P.checkResponseRouting = true ∧ (p.cmd ≠ 0x02 ∨ p.addr ≠ a) then
    ⟨3, 4, some (.routingMismatch p.addr p.cmd (some a) 0x02), none⟩
  else if n < 4 ∨ n % 2 = 1 then
    ⟨3, 2, some (.unexpectedPayloadLength (BitVec.ofNat 16 n)
      (BitVec.ofNat 18 (4 + 2 * expected.toNat))), none⟩
  else if count ≠ expected.toNat then
    ⟨3, 3, some (.pointCountMismatch (BitVec.ofNat 16 count) expected), none⟩
  else
    ⟨0, 0, none, some (.distanceFrame (le32 (b 0) (b 1) (b 2) (b 3)) expected
      ((List.range count).map fun k =>
        ⟨BitVec.ofNat 16 k, BitVec.ofNat 9 (v k / 128), BitVec.ofNat 7 (v k % 128),
          P.angleTransform (BitVec.ofNat 16 k) expected⟩))⟩

/-! ## Several steps -/

/-- A step function applied `n` times over, as long as it answers a next state. -/
def repeatStep (f : State → Out) : Nat → State → Out
  | 0, s => .next s
  | n + 1, s =>
    match f s with
    | .next t => repeatStep f n t
    | .fault g => .fault g
    | .refused r => .refused r

/-- RECV applied up to `n` times over, as long as it waits: one Decode over its transactions
(40_frame_codec R104). -/
def recvTimes : Nat → State → Flow Packet
  | 0, s => .wait s
  | n + 1, s =>
    match recv s with
    | .run p t => .run p t
    | .wait t => recvTimes n t
    | .err e t => .err e t
    | .stop g => .stop g

/-! ## The invariant -/

/-- Both buffers are in canonical form and hold no address beyond their end (20_memory R41, R42). -/
def State.buffersOk (s : State) : Bool :=
  s.txbuf.wf && s.txbuf.below txbufSize && s.rxpay.wf && s.rxpay.below rxpaySize

/-- The packet the operation in REQ sends. -/
def State.packetDue (s : State) : Option Packet :=
  match s.requested with
  | .ok i => s.packetSent i
  | .error _ => none

/-- While a TxWrite is outstanding, TXBUF holds the frame of the operation in REQ, which may send it. -/
def State.txOk (s : State) : Bool :=
  match s.packetDue with
  | some p =>
    known p.cmd && sendLegal s.mode p.cmd && decide (p.payload.length ≤ maxPayload)
      && s.txFrame == encodePacket p
  | none => false

/-- While a read is outstanding, the operation in REQ is one that receives, in the mode it needs. -/
def State.rxOk (s : State) : Bool :=
  match s.requested with
  | .ok .awaitResponse => s.mode == .idle
  | .ok .configureAddress => s.mode == .idle
  | .ok .getCoefficients => s.mode == .idle
  | .ok (.receiveFrame _) => s.mode == .streaming
  | .ok _ => false
  | .error _ => false

/-- Past the header read, the marker has been seen and DECL_LEN is the header's. -/
def State.headerOk (s : State) : Bool :=
  s.hdr.marker == startMarker && s.declLen == s.hdr.declLen

/-- What holds between two steps in each phase (10_state R23; 42_session_ops R166). -/
def State.phaseOk (s : State) : Bool :=
  match s.phase with
  | .ready => true
  | .tx => s.txOk
  | .rxHeader => s.rxOk
  | .rxPayload => s.rxOk && s.headerOk && s.declLen != 0
  | .rxChecksum => s.rxOk && s.headerOk
  | .check => false
  | .interpret => false

/-- The invariant of a run. -/
def State.inv (s : State) : Bool := s.buffersOk && s.phaseOk

end Sys2Proof.Machine
end

