-- ==== Sys2Proof/Certificates/Slice0/Obligations.lean ====
section
/-! DEFINITION. The statements for the provers. Each docstring names the rules of spec/ it formalises. -/

open Sys2Proof Sys2Proof.Machine

/-! ## Encodings -/

/-- Decoding an encoded well-formed instruction gives it back, whatever bytes follow. -/
def Obligations.DecodeEncodeRoundTrip : Prop :=
  ∀ (i : Instr) (rest : List Byte), i.wellFormed = true → decode (encode i ++ rest) = .ok (i, rest)

/-- Bytes that decode are an encoding: no bit of an accepted frame or request is dropped. -/
def Obligations.DecodeAcceptsOnlyEncodings : Prop :=
  ∀ (bs : List Byte) (i : Instr) (rest : List Byte), decode bs = .ok (i, rest) →
    i.wellFormed = true ∧ bs = encode i ++ rest

/-- Words written out from 30_encoding R60, R70, R71 and the frames of 41_command_catalog decode to the
instructions they stand for. -/
def Obligations.WrittenOutWordsDecode : Prop :=
  decode [0xAA, 0xAA, 0xAA, 0xAA, 0x01, 0x02, 0, 0, 0, 0, 0x03]
      = .ok (.frameGetDistance 0x01 0 [], [])
  ∧ decode [0xAA, 0xAA, 0xAA, 0xAA, 0x01, 0x10, 0x34, 0x12, 0x01, 0x00, 0xAB, 0x03]
      = .ok (.frameAcknowledge 0x01 0x1234 [0xAB], [])
  ∧ decode [0x00, 0x10, 0x01, 0x34, 0x12, 0x01, 0x00, 0x00, 0xAB]
      = .ok (.issue 0x10 0x01 0x1234 [0xAB], [])
  ∧ decode [0x06, 0, 0, 0, 0, 0x03, 0x02, 0] = .ok (.receiveFrame 0x0203, [])
  ∧ decode [0x07, 0x02, 0, 0, 0, 0, 0, 0] = .ok (.setDeviceAddress 0x02, [])
  ∧ decode [0x08, 0, 0, 0, 0, 0, 0, 0] = .error (.unknownOp 0x08)
  ∧ decode [0x05, 0x01, 0, 0, 0, 0, 0, 0] = .error (.reservedField 0x05)

/-- The frame's layout, field by field (30_encoding R60), and its checksum byte (R67). -/
def Obligations.FrameLayout : Prop :=
  ∀ (p : Packet), p.payload.length ≤ 65535 →
    let f := encodePacket p
    let n := p.payload.length
    f.length = 11 + n
    ∧ f.take 4 = [0xAA, 0xAA, 0xAA, 0xAA]
    ∧ f.getD 4 0 = p.addr
    ∧ f.getD 5 0 = p.cmd
    ∧ (f.getD 6 0).toNat + 256 * (f.getD 7 0).toNat = p.off.toNat
    ∧ (f.getD 8 0).toNat + 256 * (f.getD 9 0).toNat = n
    ∧ (f.drop 10).take n = p.payload
    ∧ (f.getD (10 + n) 0).toNat = (((f.drop 4).take (6 + n)).map BitVec.toNat).sum % 256

/-- The checksum is the sum of the bytes after the marker, and reducing mod 256 after every addition
gives the same; the unreduced sum fits 32 bits (40_frame_codec R100). -/
def Obligations.ChecksumIsByteSum : Prop :=
  ∀ (addr cmd : Byte) (off : Half) (pl : List Byte), pl.length ≤ 65535 →
    let bs := [addr, cmd] ++ bytesLe16 off ++ bytesLe16 (BitVec.ofNat 16 pl.length) ++ pl
    (checksum addr cmd off pl).toNat = (bs.map BitVec.toNat).sum % 256
    ∧ checksum addr cmd off pl = bs.foldl (fun acc b => acc + b) 0
    ∧ (bs.map BitVec.toNat).sum ≤ 255 * (6 + 65535)
    ∧ (bs.map BitVec.toNat).sum < 2 ^ 32

/-- The catalog is the five codes; Decode's `cmd_known` and ISSUE's check read it (41_command_catalog
R136; 42_session_ops R150; 60_exceptions R236).
What REQ, the decoder's registers and the buffers keep once an ISSUE is refused is the model's (log entry
18). -/
def Obligations.CatalogIsFiveCodes : Prop :=
  (∀ c : Byte, known c = true
    ↔ c = 0x02 ∨ c = 0x0F ∨ c = 0x10 ∨ c = 0x12 ∨ c = 0x16)
  ∧ (∀ p : Packet, packetResult p
      = .packet p.addr p.cmd (known p.cmd) p.off (BitVec.ofNat 16 p.payload.length) p.payload)
  ∧ (∀ (c addr : Byte) (off : Half) (pl : List Byte) (s : State), known c = false →
      exec (.issue c addr off pl) s = .next (s.respond ⟨6, 2, some (.unknownCommand c), none⟩))

/-! ## Sending -/

/-- BEGIN_STREAM: it puts its eleven bytes in TXBUF and issues the TxWrite, and when that completes they
are on the link, MODE is Streaming and the response is OK (42_session_ops R161; 41_command_catalog R131).
What REQ, the decoder's registers and the buffers keep once it ends is the model's (log entry 18). -/
def Obligations.BeginStreamEntersStreaming : Prop :=
  ∀ (s : State), s.mode = .idle →
    let f : List Byte := [0xAA, 0xAA, 0xAA, 0xAA, s.devAddr, 0x02, 0, 0, 0, 0, s.devAddr + 0x02]
    (s.phase ≠ .tx → exec .beginStream s = .next
      { s with phase := .tx, txbuf := s.txbuf.writeBytes 0 f })
    ∧ (∀ as, s.phase = .tx → s.answers = .complete :: as → exec .beginStream s = .next
      { s with
        mode := .streaming, phase := .ready, answers := as, link := s.link ++ f
        hostOut := s.hostOut ++ [⟨0, 0, none, some .empty⟩] })

/-- STOP_STREAM, in either mode: it puts its eleven bytes in TXBUF and issues the TxWrite, and when that
completes they are on the link, MODE is Idle and the response is OK (42_session_ops R162;
41_command_catalog R132).
What REQ, the decoder's registers and the buffers keep once it ends is the model's (log entry 18). -/
def Obligations.StopStreamLeavesStreaming : Prop :=
  ∀ (s : State),
    let f : List Byte := [0xAA, 0xAA, 0xAA, 0xAA, s.devAddr, 0x0F, 0, 0, 0, 0, s.devAddr + 0x0F]
    (s.phase ≠ .tx → exec .stopStream s = .next
      { s with phase := .tx, txbuf := s.txbuf.writeBytes 0 f })
    ∧ (∀ as, s.phase = .tx → s.answers = .complete :: as → exec .stopStream s = .next
      { s with
        mode := .idle, phase := .ready, answers := as, link := s.link ++ f
        hostOut := s.hostOut ++ [⟨0, 0, none, some .empty⟩] })

/-- SET_DEVICE_ADDRESS completes in Idle: DEV_ADDR is written, OK is returned, and nothing else changes:
no transaction is issued and no byte of a buffer is stored (42_session_ops R164).
What REQ, the decoder's registers and the buffers keep once it ends is the model's (log entry 18). -/
def Obligations.SetDeviceAddressWritesDevAddr : Prop :=
  ∀ (s : State) (a : Byte), s.mode = .idle →
    exec (.setDeviceAddress a) s = .next
      { s with devAddr := a, phase := .ready, hostOut := s.hostOut ++ [⟨0, 0, none, some .empty⟩] }

/-- ISSUE: the host's packet becomes a frame in TXBUF and its TxWrite is issued, and when that completes
the frame is on the link, MODE follows the transition rule and the response is OK (42_session_ops R157,
R152).
What REQ, the decoder's registers and the buffers keep once it ends is the model's (log entry 18). -/
def Obligations.IssueSendsThePacket : Prop :=
  ∀ (s : State) (cmd addr : Byte) (off : Half) (pl : List Byte),
    known cmd = true → pl.length ≤ 65535 → (s.mode = .idle ∨ cmd = 0x0F) →
    let f := encodePacket ⟨addr, cmd, off, pl⟩
    (s.phase ≠ .tx → exec (.issue cmd addr off pl) s = .next
      { s with phase := .tx, txbuf := s.txbuf.writeBytes 0 f })
    ∧ (∀ as, s.phase = .tx → s.answers = .complete :: as → exec (.issue cmd addr off pl) s = .next
      { s with
        mode := if cmd = 0x02 then .streaming else if cmd = 0x0F then .idle else s.mode
        phase := .ready, answers := as, link := s.link ++ f
        hostOut := s.hostOut ++ [⟨0, 0, none, some .empty⟩] })

/-- The five wire commands, their TxWrite outstanding for an operation that does not receive: when it
completes, the frame is on the link, MODE is Streaming after GetDistance, Idle after Stop, else as it
was, and the response is OK (41_command_catalog R131 to R135). That they run as instructions is the
model's choice (log entry 12).
What REQ, the decoder's registers and the buffers keep once it ends is the model's (log entry 18). -/
def Obligations.WireCommandsSendTheirFrame : Prop :=
  ∀ (s : State) (addr : Byte) (off : Half) (pl : List Byte) (as : List Answer),
    s.phase = .tx → pl.length ≤ 65535 → s.answers = .complete :: as →
    s.req.op ≠ 0x02 → s.req.op ≠ 0x03 →
    let done (cmd : Byte) (m : Mode) : State :=
      { s with
        mode := m, phase := .ready, answers := as
        link := s.link ++ encodePacket ⟨addr, cmd, off, pl⟩
        hostOut := s.hostOut ++ [⟨0, 0, none, some .empty⟩] }
    exec (.frameStop addr off pl) s = .next (done 0x0F .idle)
    ∧ (s.mode = .idle →
        exec (.frameGetDistance addr off pl) s = .next (done 0x02 .streaming)
        ∧ exec (.frameAcknowledge addr off pl) s = .next (done 0x10 .idle)
        ∧ exec (.frameGetCorrectionCoefficients addr off pl) s = .next (done 0x12 .idle)
        ∧ exec (.frameConfigureAddress addr off pl) s = .next (done 0x16 .idle))

/-- A wire command whose operation in REQ is CONFIGURE_ADDRESS or GET_COEFFICIENTS goes on to receive:
when its write completes, the header read is issued (42_session_ops R159, R160, R166). The continuation
by REQ is the model's choice (log entry 12). -/
def Obligations.WireCommandContinuesItsOperation : Prop :=
  ∀ (s : State) (i : Instr) (p : Packet) (as : List Answer),
    isHostOp i = false → s.packetSent i = some p → modeAllows s.mode i = true → s.phase = .tx →
    p.payload.length ≤ 65535 → s.answers = .complete :: as →
    (s.req.op = 0x02 ∨ s.req.op = 0x03) →
    exec i s = .next
      { s with
        mode := if p.cmd = 0x02 then .streaming else if p.cmd = 0x0F then .idle else s.mode
        phase := .rxHeader, answers := as, link := s.link ++ encodePacket p }

/-- While a TxWrite is outstanding in a run, the wire command in TXBUF and the operation in REQ are one
and the same step (41_command_catalog, opening; log entry 12). -/
def Obligations.WireCommandRunsItsOperation : Prop :=
  ∀ (s : State) (i : Instr), s.inv = true → s.phase = .tx → s.requested = .ok i →
    ∃ w, s.outgoing = some w ∧ isHostOp w = false ∧ exec w s = exec i s

/-- Every instruction that sends, up to the end of its write. Before TX: its frame in TXBUF and the
TxWrite issued, nothing on the link yet (42_session_ops R154). In TX, a write that fails:
TransportError(TX), MODE and DEV_ADDR as they were, some prefix of the frame on the link (20_memory R47,
R48; 42_session_ops R152). In TX, a write not answered: the block waits (70_reset R266; log entries 2 and
3).
What REQ, the decoder's registers and the buffers keep once it ends is the model's (log entry 18). -/
def Obligations.UnfinishedWrite : Prop :=
  ∀ (s : State) (i : Instr) (p : Packet),
    s.packetSent i = some p → known p.cmd = true → p.payload.length ≤ 65535 →
    modeAllows s.mode i = true → s.receiving = false →
    let f := encodePacket p
    (s.phase ≠ .tx → exec i s = .next { s with phase := .tx, txbuf := s.txbuf.writeBytes 0 f })
    ∧ (∀ k as, s.phase = .tx → s.answers = .fail k :: as →
      exec i s = .next
        { s with
          phase := .ready, answers := as, link := s.link ++ f.take k
          hostOut := s.hostOut ++ [⟨4, 1, some (.transport .tx), none⟩] })
    ∧ (∀ as, s.phase = .tx → s.answers = .silent :: as → exec i s = .next { s with answers := as })
    ∧ (s.phase = .tx → s.answers = [] → exec i s = .next s)

/-- A frame too long for TXBUF stops the model: the model's own stop, log entry 14. No well-formed
instruction has one. -/
def Obligations.OversizedFrameStops : Prop :=
  ∀ (s : State) (i : Instr) (p : Packet),
    s.packetSent i = some p → known p.cmd = true → modeAllows s.mode i = true →
    s.receiving = false → 65535 < p.payload.length → exec i s = .fault .outsideTxbuf

/-- The frame Encode leaves in TXBUF is read back whole, whatever was there (40_frame_codec R101;
20_memory R41). -/
def Obligations.TxbufHoldsTheFrame : Prop :=
  ∀ (s : State) (p : Packet), p.payload.length ≤ 65535 →
    (s.loadTx (encodePacket p)).txFrame = encodePacket p

/-! ## Receiving -/

/-- AWAIT_RESPONSE, a step for each of its reads and one for its response, returns the packet whose frame
the transport delivers, with `cmd_known`, and takes exactly the frame's bytes (40_frame_codec R110;
42_session_ops R158; 00_scope R7).
What REQ, the decoder's registers and the buffers keep once it ends is the model's (log entry 18). -/
def Obligations.AwaitResponseReturnsThePacket : Prop :=
  ∀ (s : State) (p : Packet) (rest : List Byte) (as : List Answer),
    s.mode = .idle → s.receiving = false → p.payload.length ≤ 65535 →
    s.rxStream = encodePacket p ++ rest → s.answers = readAnswers p ++ as →
    repeatStep (exec .awaitResponse) ((readAnswers p).length + 1) s = .next
      ((s.received p rest as).respond
        ⟨0, 0, none, some (.packet p.addr p.cmd (known p.cmd) p.off
          (BitVec.ofNat 16 p.payload.length) p.payload)⟩)

/-- CONFIGURE_ADDRESS, over its steps: it sends ConfigureAddress to address 0, and the response's address
byte 0x01, 0x03 or 0x07 is 1, 2 or 3 devices (42_session_ops R159; 43_payload_decoders R200; 00_scope
R7).
What REQ, the decoder's registers and the buffers keep once it ends is the model's (log entry 18). -/
def Obligations.ConfigureAddressCountsDevices : Prop :=
  ∀ (s : State) (p : Packet) (n : Byte) (rest : List Byte) (as : List Answer),
    s.mode = .idle → s.starting = true → p.payload.length ≤ 65535 →
    s.rxStream = encodePacket p ++ rest → s.answers = .complete :: (readAnswers p ++ as) →
    (p.cmd = 0x16 ∨ Config.checkResponseRouting = false) →
    (p.addr, n) ∈ [((0x01 : Byte), (1 : Byte)), (0x03, 2), (0x07, 3)] →
    repeatStep (exec .configureAddress) ((readAnswers p).length + 2) s = .next
      (((s.sent ⟨0x00, 0x16, 0, []⟩ (readAnswers p ++ as)).received p rest as).respond
        ⟨0, 0, none, some (.deviceCount n)⟩)

/-- GET_COEFFICIENTS, over its steps: it sends GetCorrectionCoefficients to DEV_ADDR, and an 18-byte
payload is four 32-bit raw values and a 16-bit count, little-endian, unsigned (42_session_ops R160;
43_payload_decoders R201; 00_scope R7).
What REQ, the decoder's registers and the buffers keep once it ends is the model's (log entry 18). -/
def Obligations.GetCoefficientsReturnsCalibration : Prop :=
  ∀ (s : State) (p : Packet) (rest : List Byte) (as : List Answer),
    s.mode = .idle → s.starting = true → p.payload.length = 18 →
    s.rxStream = encodePacket p ++ rest → s.answers = .complete :: (readAnswers p ++ as) →
    ((p.cmd = 0x12 ∧ p.addr = s.devAddr) ∨ Config.checkResponseRouting = false) →
    let b (k : Nat) : Byte := p.payload.getD k 0
    repeatStep (exec .getCoefficients) ((readAnswers p).length + 2) s = .next
      (((s.sent ⟨s.devAddr, 0x12, 0, []⟩ (readAnswers p ++ as)).received p rest as).respond
        ⟨0, 0, none, some (.coefficients
          (le32 (b 0) (b 1) (b 2) (b 3)) (le32 (b 4) (b 5) (b 6) (b 7))
          (le32 (b 8) (b 9) (b 10) (b 11)) (le32 (b 12) (b 13) (b 14) (b 15))
          (le16 (b 16) (b 17)))⟩)

/-- RECEIVE_FRAME in Streaming, over its steps: the timestamp, and one sample for each two bytes after it,
the count being expectedPointCount; MODE stays Streaming (42_session_ops R163; 43_payload_decoders R203 to
R206; 00_scope R7).
What REQ, the decoder's registers and the buffers keep once it ends is the model's (log entry 18). -/
def Obligations.ReceiveFrameReturnsSamples : Prop :=
  ∀ (s : State) (expected : Half) (p : Packet) (rest : List Byte) (as : List Answer),
    s.mode = .streaming → s.receiving = false → p.payload.length = 4 + 2 * expected.toNat →
    p.payload.length ≤ 65535 →
    s.rxStream = encodePacket p ++ rest → s.answers = readAnswers p ++ as →
    ((p.cmd = 0x02 ∧ p.addr = s.devAddr) ∨ Config.checkResponseRouting = false) →
    let b (k : Nat) : Byte := p.payload.getD k 0
    let v (n : Nat) : Nat := (b (4 + 2 * n)).toNat + 256 * (b (5 + 2 * n)).toNat
    repeatStep (exec (.receiveFrame expected)) ((readAnswers p).length + 1) s = .next
      ((s.received p rest as).respond
        ⟨0, 0, none, some (.distanceFrame (le32 (b 0) (b 1) (b 2) (b 3)) expected
          ((List.range expected.toNat).map fun n =>
            ⟨BitVec.ofNat 16 n, BitVec.ofNat 9 (v n / 128), BitVec.ofNat 7 (v n % 128),
              Config.angleTransform (BitVec.ofNat 16 n) expected⟩))⟩)

/-- With every read answered, AWAIT_RESPONSE, step by step, does what the frame decoder says of the
stream: the packet and what is left, FramingError after 10 bytes, ChecksumError after the whole frame, or,
where the stream is too short, a wait with no response that further steps do not end (40_frame_codec R104
to R106, R111). That a read completed on too short a stream is no answer, and not a TransportError, is the
model's reading (log entry 3). -/
def Obligations.AwaitResponseRefinesFrameDecoder : Prop :=
  ∀ (s : State) (as : List Answer), s.mode = .idle → s.receiving = false →
    s.answers = .complete :: .complete :: .complete :: as →
    ∃ n t, n ≤ 4 ∧ repeatStep (exec .awaitResponse) n s = .next t ∧
    match decodePacket s.rxStream with
    | .ok (p, rest) =>
        t.hostOut = s.hostOut ++ [⟨0, 0, none, some (packetResult p)⟩]
        ∧ t.rxStream = rest ∧ t.phase = .ready
    | .error .badMarker => ∃ b0 b1 b2 b3,
        s.rxStream.take 4 = [b0, b1, b2, b3] ∧ [b0, b1, b2, b3] ≠ [0xAA, 0xAA, 0xAA, 0xAA]
        ∧ t.hostOut = s.hostOut ++ [⟨1, 0, some (.framing b0 b1 b2 b3), none⟩]
        ∧ t.rxStream = s.rxStream.drop 10 ∧ t.phase = .ready
    | .error (.badChecksum received computed) =>
        t.hostOut = s.hostOut ++ [⟨2, 0, some (.checksum received computed), none⟩]
        ∧ t.rxStream
            = s.rxStream.drop (11 + (le16 (s.rxStream.getD 8 0) (s.rxStream.getD 9 0)).toNat)
        ∧ t.phase = .ready
    | .error .truncated =>
        t.hostOut = s.hostOut ∧ t.waiting = true ∧ exec .awaitResponse t = .next t
    | .error _ => False

/-- Decode takes a packet off the stream if and only if the marker stands there, all 11 + N bytes do,
and the checksum byte is the sum (40_frame_codec R111). -/
def Obligations.FrameAcceptance : Prop :=
  ∀ (bs : List Byte),
    (∃ p rest, decodePacket bs = .ok (p, rest)) ↔
      (let n := (bs.getD 8 0).toNat + 256 * (bs.getD 9 0).toNat
       11 + n ≤ bs.length
       ∧ bs.take 4 = [0xAA, 0xAA, 0xAA, 0xAA]
       ∧ (bs.getD (10 + n) 0).toNat = (((bs.drop 4).take (6 + n)).map BitVec.toNat).sum % 256)

/-- The bytes one Decode takes over all its transactions, for each of its outcomes, however long the
transport is silent between them (40_frame_codec R107). -/
def Obligations.DecodeByteAccounting : Prop :=
  ∀ (s : State) (n : Nat), s.receiving = false →
    (∀ p t, recvTimes n s = .run p t →
      11 + t.declLen.toNat ≤ s.rxStream.length
      ∧ t.rxStream = s.rxStream.drop (11 + t.declLen.toNat))
    ∧ (∀ b0 b1 b2 b3 t, recvTimes n s = .err (.framing b0 b1 b2 b3) t →
      10 ≤ s.rxStream.length ∧ t.rxStream = s.rxStream.drop 10)
    ∧ (∀ r c t, recvTimes n s = .err (.checksum r c) t →
      11 + t.declLen.toNat ≤ s.rxStream.length
      ∧ t.rxStream = s.rxStream.drop (11 + t.declLen.toNat))
    ∧ (∀ t, recvTimes n s = .err (.transport .rxHeader) t →
      ∃ k, k ≤ 10 ∧ t.rxStream = s.rxStream.drop k)
    ∧ (∀ t, recvTimes n s = .err (.transport .rxPayload) t →
      ∃ k, k ≤ t.declLen.toNat ∧ t.rxStream = s.rxStream.drop (10 + k))
    ∧ (∀ t, recvTimes n s = .err (.transport .rxChecksum) t →
      ∃ k, k ≤ 1 ∧ t.rxStream = s.rxStream.drop (10 + t.declLen.toNat + k))

/-- Each read of the four operations that receive, when the transport completes it. In RX_HEADER: HDR,
DECL_LEN, and the next read issued. In RX_PAYLOAD: RXPAY, and the checksum read issued. In RX_CHECKSUM:
the operation's own result of the packet in HDR and RXPAY (42_session_ops R155, R158 to R160, R163, R165,
R166; 40_frame_codec R104; the expected length of an UnexpectedPayloadLength: log entry 19).
What REQ, the decoder's registers and the buffers keep once it ends is the model's (log entry 18). -/
def Obligations.ResumedReadsFinishTheFrame : Prop :=
  ∀ (s : State) (p : Packet) (rest : List Byte) (as : List Answer),
    p.payload.length ≤ 65535 → s.answers = .complete :: as →
    let n : Half := BitVec.ofNat 16 p.payload.length
    let h : Header := ⟨0xAA, 0xAA, 0xAA, 0xAA, p.addr, p.cmd, lowByte p.off, highByte p.off,
      lowByte n, highByte n⟩
    let ck := checksum p.addr p.cmd p.off p.payload
    (∀ i, (i = .awaitResponse ∨ i = .configureAddress ∨ i = .getCoefficients
        ∨ ∃ expected, i = .receiveFrame expected) →
      (s.phase = .rxHeader → s.rxStream = headerBytes p ++ rest →
        exec i s = .next
          { s with
            phase := if p.payload = [] then .rxChecksum else .rxPayload
            hdr := h, declLen := n, rxStream := rest, answers := as })
      ∧ (s.phase = .rxPayload → s.declLen = n → s.rxStream = p.payload ++ rest →
        exec i s = .next
          { s with
            phase := .rxChecksum, rxpay := s.rxpay.writeBytes 0 p.payload
            rxStream := rest, answers := as }))
    ∧ (s.phase = .rxChecksum → s.hdr = h → s.declLen = n → s.rxPayloadBytes = p.payload →
        s.rxStream = ck :: rest →
        let done (r : Response) : State :=
          { s with
            phase := .ready, rxCk := ck, calcCk := ck, rxStream := rest, answers := as
            hostOut := s.hostOut ++ [r] }
        exec .awaitResponse s = .next (done (packetResponse p))
        ∧ exec .configureAddress s = .next (done (addressResponse Config.params p))
        ∧ exec .getCoefficients s = .next (done (calibrationResponse Config.params s.devAddr p))
        ∧ ∀ expected, exec (.receiveFrame expected) s
            = .next (done (distanceResponse Config.params s.devAddr expected p)))

/-- What a completed read of a bad frame gives, for the four operations that receive: FramingError with
the four bytes observed after 10 bytes, and ChecksumError with both values after the checksum byte. A
completed read of bytes that are not there is no answer (40_frame_codec R105, R106; 20_memory R46; log
entry 3).
What REQ, the decoder's registers and the buffers keep once it ends is the model's (log entry 18). -/
def Obligations.BadFramesAreReported : Prop :=
  ∀ (s : State) (i : Instr) (as : List Answer),
    (i = .awaitResponse ∨ i = .configureAddress ∨ i = .getCoefficients
      ∨ ∃ expected, i = .receiveFrame expected) →
    s.answers = .complete :: as →
    (∀ b0 b1 b2 b3 b4 b5 b6 b7 b8 b9 rest, s.phase = .rxHeader →
      s.rxStream = [b0, b1, b2, b3, b4, b5, b6, b7, b8, b9] ++ rest →
      [b0, b1, b2, b3] ≠ [0xAA, 0xAA, 0xAA, 0xAA] →
      exec i s = .next
        { s with
          phase := .ready, hdr := ⟨b0, b1, b2, b3, b4, b5, b6, b7, b8, b9⟩
          rxStream := rest, answers := as
          hostOut := s.hostOut ++ [⟨1, 0, some (.framing b0 b1 b2 b3), none⟩] })
    ∧ (∀ ck rest, s.phase = .rxChecksum → s.rxStream = ck :: rest →
      let want := checksum s.hdr.addr s.hdr.cmd s.hdr.off s.rxPayloadBytes
      ck ≠ want →
      exec i s = .next
        { s with
          phase := .ready, rxCk := ck, calcCk := want, rxStream := rest, answers := as
          hostOut := s.hostOut ++ [⟨2, 0, some (.checksum ck want), none⟩] })
    ∧ ((s.phase = .rxHeader ∧ s.rxStream.length < 10)
        ∨ (s.phase = .rxPayload ∧ s.rxStream.length < s.declLen.toNat)
        ∨ (s.phase = .rxChecksum ∧ s.rxStream = []) →
      exec i s = .next s)

/-- A read that fails reports the phase it failed in and takes at most its own bytes; an operation that
was waiting resumes exactly there (60_exceptions R234; 20_memory R48). For the four operations that
receive.
What REQ, the decoder's registers and the buffers keep once it ends is the model's (log entry 18). -/
def Obligations.FailedReadReportsItsPhase : Prop :=
  ∀ (s : State) (i : Instr) (as : List Answer) (k : Nat),
    (i = .awaitResponse ∨ i = .configureAddress ∨ i = .getCoefficients
      ∨ ∃ expected, i = .receiveFrame expected) →
    s.answers = .fail k :: as →
    let failed (sub : Byte) (w : Transaction) (n : Nat) : State :=
      { s with
        phase := .ready, answers := as, rxStream := s.rxStream.drop (min k n)
        hostOut := s.hostOut ++ [⟨4, sub, some (.transport w), none⟩] }
    (s.phase = .rxHeader → exec i s = .next (failed 2 .rxHeader 10))
    ∧ (s.phase = .rxPayload → exec i s = .next (failed 3 .rxPayload s.declLen.toNat))
    ∧ (s.phase = .rxChecksum → exec i s = .next (failed 4 .rxChecksum 1))

/-! ## Interpreting a response -/

/-- CONFIGURE_ADDRESS on any good frame, over its steps: routing first, then the address pattern
(42_session_ops R156, R159; 60_exceptions R238; 00_scope R7).
What REQ, the decoder's registers and the buffers keep once it ends is the model's (log entry 18). -/
def Obligations.ConfigureAddressChecksInOrder : Prop :=
  ∀ (P : Params) (s : State) (p : Packet) (rest : List Byte) (as : List Answer),
    s.mode = .idle → s.starting = true → p.payload.length ≤ 65535 →
    s.rxStream = encodePacket p ++ rest → s.answers = .complete :: (readAnswers p ++ as) →
    repeatStep (fun u => (configureAddressFlow P u).finish) ((readAnswers p).length + 2) s = .next
      (((s.sent ⟨0x00, 0x16, 0, []⟩ (readAnswers p ++ as)).received p rest as).respond
        (if P.checkResponseRouting = true ∧ p.cmd ≠ 0x16 then
          ⟨3, 4, some (.routingMismatch p.addr p.cmd none 0x16), none⟩
        else if p.addr = 0x01 then ⟨0, 0, none, some (.deviceCount 1)⟩
        else if p.addr = 0x03 then ⟨0, 0, none, some (.deviceCount 2)⟩
        else if p.addr = 0x07 then ⟨0, 0, none, some (.deviceCount 3)⟩
        else ⟨3, 1, some (.badAddressPattern p.addr), none⟩))

/-- GET_COEFFICIENTS on any good frame, over its steps: routing first, then the length (42_session_ops
R156, R160; 43_payload_decoders R201; 60_exceptions R238; 00_scope R7).
What REQ, the decoder's registers and the buffers keep once it ends is the model's (log entry 18). -/
def Obligations.GetCoefficientsChecksInOrder : Prop :=
  ∀ (P : Params) (s : State) (p : Packet) (rest : List Byte) (as : List Answer),
    s.mode = .idle → s.starting = true → p.payload.length ≤ 65535 →
    s.rxStream = encodePacket p ++ rest → s.answers = .complete :: (readAnswers p ++ as) →
    let b (k : Nat) : Byte := p.payload.getD k 0
    repeatStep (fun u => (getCoefficientsFlow P u).finish) ((readAnswers p).length + 2) s = .next
      (((s.sent ⟨s.devAddr, 0x12, 0, []⟩ (readAnswers p ++ as)).received p rest as).respond
        (if P.checkResponseRouting = true ∧ (p.cmd ≠ 0x12 ∨ p.addr ≠ s.devAddr) then
          ⟨3, 4, some (.routingMismatch p.addr p.cmd (some s.devAddr) 0x12), none⟩
        else if p.payload.length ≠ 18 then
          ⟨3, 2, some (.unexpectedPayloadLength (BitVec.ofNat 16 p.payload.length) 18), none⟩
        else ⟨0, 0, none, some (.coefficients
          (le32 (b 0) (b 1) (b 2) (b 3)) (le32 (b 4) (b 5) (b 6) (b 7))
          (le32 (b 8) (b 9) (b 10) (b 11)) (le32 (b 12) (b 13) (b 14) (b 15))
          (le16 (b 16) (b 17)))⟩))

/-- RECEIVE_FRAME on any good frame, over its steps: routing, then the length, then the count; MODE stays
Streaming (42_session_ops R156, R163; 43_payload_decoders R203; 60_exceptions R238; 00_scope R7). The
length reported as expected is the full 4 + 2 * expectedPointCount, up to 131074: that its field has 18
bits is the model's choice (log entry 19).
What REQ, the decoder's registers and the buffers keep once it ends is the model's (log entry 18). -/
def Obligations.ReceiveFrameChecksInOrder : Prop :=
  ∀ (P : Params) (s : State) (expected : Half) (p : Packet) (rest : List Byte) (as : List Answer),
    s.mode = .streaming → s.receiving = false → p.payload.length ≤ 65535 →
    s.rxStream = encodePacket p ++ rest → s.answers = readAnswers p ++ as →
    let n := p.payload.length
    let count := (n - 4) / 2
    ∃ wanted : BitVec 18, wanted.toNat = 4 + 2 * expected.toNat ∧
    repeatStep (fun u => (receiveFrameFlow P expected u).finish) ((readAnswers p).length + 1) s
      = .next ((s.received p rest as).respond
        (if P.checkResponseRouting = true ∧ (p.cmd ≠ 0x02 ∨ p.addr ≠ s.devAddr) then
          ⟨3, 4, some (.routingMismatch p.addr p.cmd (some s.devAddr) 0x02), none⟩
        else if n < 4 ∨ n % 2 = 1 then
          ⟨3, 2, some (.unexpectedPayloadLength (BitVec.ofNat 16 n) wanted), none⟩
        else if count ≠ expected.toNat then
          ⟨3, 3, some (.pointCountMismatch (BitVec.ofNat 16 count) expected), none⟩
        else ⟨0, 0, none, some (.distanceFrame (long p.payload 0) expected
          ((List.range count).map (distanceSample P p.payload count)))⟩))

/-- `AddressCount` (43_payload_decoders R200): three accepted patterns, each its popcount, and
BadAddressPattern for the other 253. -/
def Obligations.AddressCountPatterns : Prop :=
  addressCount 0x01 = .ok (.deviceCount 1)
  ∧ addressCount 0x03 = .ok (.deviceCount 2)
  ∧ addressCount 0x07 = .ok (.deviceCount 3)
  ∧ ∀ a : Byte, a ≠ 0x01 → a ≠ 0x03 → a ≠ 0x07 → addressCount a = .error (.badAddressPattern a)

/-- `DecodeCalibration` (43_payload_decoders R201), with every value of every byte. -/
def Obligations.CalibrationFields : Prop :=
  ∀ (pl : List Byte),
    (pl.length ≠ 18 →
      decodeCalibration pl
        = .error (.unexpectedPayloadLength (BitVec.ofNat 16 pl.length) 18))
    ∧ (pl.length = 18 → ∃ k0 k1 b0 b1 points,
      decodeCalibration pl = .ok (.coefficients k0 k1 b0 b1 points)
      ∧ (let b (k : Nat) : Nat := (pl.getD k 0).toNat
         k0.toNat = b 0 + 256 * b 1 + 65536 * b 2 + 16777216 * b 3
         ∧ k1.toNat = b 4 + 256 * b 5 + 65536 * b 6 + 16777216 * b 7
         ∧ b0.toNat = b 8 + 256 * b 9 + 65536 * b 10 + 16777216 * b 11
         ∧ b1.toNat = b 12 + 256 * b 13 + 65536 * b 14 + 16777216 * b 15
         ∧ points.toNat = b 16 + 256 * b 17))

/-- The value of a coefficient is the exact rational raw / 10000, from 0 to 429496.7295
(43_payload_decoders R202). -/
def Obligations.CoefficientValueIsExact : Prop :=
  ∀ raw : Long, coefficientValue raw * 10000 = (raw.toNat : Rat)
    ∧ 0 ≤ coefficientValue raw ∧ coefficientValue raw ≤ 4294967295 / 10000

/-- The sample split: nine bits of distance above seven of confidence, nothing between and nothing left
(43_payload_decoders R205). -/
def Obligations.SampleSplit : Prop :=
  ∀ v : Half, (sampleDistance v).toNat = v.toNat / 128
    ∧ (sampleConfidence v).toNat = v.toNat % 128
    ∧ sampleDistance v = v.extractLsb' 7 9
    ∧ sampleConfidence v = v.extractLsb' 0 7

/-- Each sample depends only on its own two bytes, its index and the count, and the samples come in
payload order (43_payload_decoders R206, R207). -/
def Obligations.SamplesAreIndependent : Prop :=
  ∀ (P : Params) (pl : List Byte) (expected : Half),
    pl.length = 4 + 2 * expected.toNat →
    ∃ ts samples, decodeDistance P pl expected = .ok (.distanceFrame ts expected samples)
      ∧ ts.toNat = (pl.getD 0 0).toNat + 256 * (pl.getD 1 0).toNat
          + 65536 * (pl.getD 2 0).toNat + 16777216 * (pl.getD 3 0).toNat
      ∧ samples.length = expected.toNat
      ∧ ∀ n, (h : n < samples.length) →
          let v := (pl.getD (4 + 2 * n) 0).toNat + 256 * (pl.getD (5 + 2 * n) 0).toNat
          samples[n].index.toNat = n
          ∧ samples[n].distance.toNat = v / 128
          ∧ samples[n].confidence.toNat = v % 128
          ∧ samples[n].angle = P.angleTransform (BitVec.ofNat 16 n) expected

/-- CheckRouting: it does nothing where the parameter is false, and where it is true it compares the
command, and the address unless it is NONE (42_session_ops R156). -/
def Obligations.RoutingCheck : Prop :=
  ∀ (P : Params) (p : Packet) (cExp : Byte) (aExp : Option Byte),
    (P.checkResponseRouting = false → routingError P p cExp aExp = none)
    ∧ (P.checkResponseRouting = true → p.cmd = cExp → (aExp = none ∨ aExp = some p.addr) →
        routingError P p cExp aExp = none)
    ∧ (P.checkResponseRouting = true → (p.cmd ≠ cExp ∨ ∃ a, aExp = some a ∧ p.addr ≠ a) →
        routingError P p cExp aExp = some (.routingMismatch p.addr p.cmd aExp cExp))

/-- With routing unchecked, a residual distance frame of seven samples is taken for calibration data,
and one of any other count is an UnexpectedPayloadLength (70_reset R268). -/
def Obligations.ResidualFrameReadAsCalibration : Prop :=
  ∀ (P : Params) (s : State) (p : Packet) (count : Nat) (rest : List Byte) (as : List Answer),
    P.checkResponseRouting = false → s.mode = .idle → s.starting = true →
    p.payload.length = 4 + 2 * count → p.payload.length ≤ 65535 →
    s.rxStream = encodePacket p ++ rest → s.answers = .complete :: (readAnswers p ++ as) →
    ∃ t, repeatStep (fun u => (getCoefficientsFlow P u).finish) ((readAnswers p).length + 2) s
        = .next t
      ∧ t.rxStream = rest
      ∧ (count = 7 → ∃ k0 k1 b0 b1 points,
          t.hostOut = s.hostOut ++ [⟨0, 0, none, some (.coefficients k0 k1 b0 b1 points)⟩])
      ∧ (count ≠ 7 → t.hostOut = s.hostOut
          ++ [⟨3, 2, some (.unexpectedPayloadLength (BitVec.ofNat 16 p.payload.length) 18), none⟩])

/-! ## Checks before any transaction -/

/-- The mode table (42_session_ops R151): where an operation is not legal, StateError with the OP and the
MODE, nothing sent, read or changed; where it is legal, no StateError. A wire command reports the OP in
REQ.
What REQ, the decoder's registers and the buffers keep once it ends is the model's (log entry 18). -/
def Obligations.ModeTableIsEnforced : Prop :=
  ∀ (s : State) (i : Instr), s.receiving = false →
    (∀ cmd addr off pl, i = .issue cmd addr off pl → known cmd = true) →
    let op := if isHostOp i then (requestOf i).op else s.req.op
    (modeAllows s.mode i = false →
      exec i s = .next (s.respond ⟨5, 0, some (.stateError op s.mode), none⟩))
    ∧ (modeAllows s.mode i = true → ∀ t o m, exec i s = .next t →
      t.hostOut ≠ s.hostOut ++ [⟨5, 0, some (.stateError o m), none⟩])

/-- The request check, in its order (42_session_ops R150): UnknownOp, ReservedField, UnknownCommand;
nothing is sent or read, and only REQ and the response show the request. That REQ keeps the refused request
in READY, and that acceptance, check and response are one step, is the model's (log entries 18 and 1). -/
def Obligations.MalformedRequestsAreRefused : Prop :=
  ∀ (s : State) (r : Request) (rest : List Byte),
    s.platform = [] → s.phase = .ready → takeRequest s.hostIn = some (r, rest) →
    let refused (sub : Byte) (e : ErrorInfo) : Prop :=
      step s = .next
        { s with
          req := r, hostIn := rest, hostOut := s.hostOut ++ [⟨6, sub, some e, none⟩] }
    (7 < r.op.toNat → refused 1 (.unknownOp r.op))
    ∧ (r.op.toNat ≤ 7 →
        (r.rsv ≠ 0 ∨ (r.a ≠ 0 ∧ r.op ≠ 0x00 ∧ r.op ≠ 0x07) ∨ (r.b ≠ 0 ∧ r.op ≠ 0x00)
          ∨ (r.off ≠ 0 ∧ r.op ≠ 0x00) ∨ (r.len ≠ 0 ∧ r.op ≠ 0x00 ∧ r.op ≠ 0x06)) →
        refused 3 (.reservedField r.op))
    ∧ (r.op = 0x00 → r.rsv = 0 → known r.a = false → refused 2 (.unknownCommand r.a))

/-- STATUS and SUB of each error (60_exceptions R230 to R236). -/
def Obligations.StatusAndSubCodes : Prop :=
  (∀ b0 b1 b2 b3, Response.error (.framing b0 b1 b2 b3) = ⟨1, 0, some (.framing b0 b1 b2 b3), none⟩)
  ∧ (∀ r c, Response.error (.checksum r c) = ⟨2, 0, some (.checksum r c), none⟩)
  ∧ (∀ a, Response.error (.badAddressPattern a) = ⟨3, 1, some (.badAddressPattern a), none⟩)
  ∧ (∀ a e, Response.error (.unexpectedPayloadLength a e)
      = ⟨3, 2, some (.unexpectedPayloadLength a e), none⟩)
  ∧ (∀ a e, Response.error (.pointCountMismatch a e) = ⟨3, 3, some (.pointCountMismatch a e), none⟩)
  ∧ (∀ a c x e, Response.error (.routingMismatch a c x e)
      = ⟨3, 4, some (.routingMismatch a c x e), none⟩)
  ∧ Response.error (.transport .tx) = ⟨4, 1, some (.transport .tx), none⟩
  ∧ Response.error (.transport .rxHeader) = ⟨4, 2, some (.transport .rxHeader), none⟩
  ∧ Response.error (.transport .rxPayload) = ⟨4, 3, some (.transport .rxPayload), none⟩
  ∧ Response.error (.transport .rxChecksum) = ⟨4, 4, some (.transport .rxChecksum), none⟩
  ∧ (∀ o m, Response.error (.stateError o m) = ⟨5, 0, some (.stateError o m), none⟩)
  ∧ (∀ o, Response.error (.unknownOp o) = ⟨6, 1, some (.unknownOp o), none⟩)
  ∧ (∀ c, Response.error (.unknownCommand c) = ⟨6, 2, some (.unknownCommand c), none⟩)
  ∧ (∀ o, Response.error (.reservedField o) = ⟨6, 3, some (.reservedField o), none⟩)

/-- An error never changes MODE or DEV_ADDR, ends in READY, and pushes nothing back into the stream: for
every instruction, and for every step of the block, one that goes on after a write it waited for included
(60_exceptions R237; 40_frame_codec R108). -/
def Obligations.ErrorsKeepTheSession : Prop :=
  let kept (s t : State) : Prop :=
    t.mode = s.mode ∧ t.devAddr = s.devAddr ∧ t.phase = .ready
      ∧ ∃ k, t.rxStream = s.rxStream.drop k
  (∀ (i : Instr) (s t : State) (e : ErrorInfo), exec i s = .next t →
    t.hostOut = s.hostOut ++ [Response.error e] → kept s t)
  ∧ (∀ (s t : State) (r : Response), (∀ l m ps, s.platform ≠ .reset l m :: ps) →
    step s = .next t → t.hostOut = s.hostOut ++ [r] → r.status ≠ 0 → kept s t)

/-! ## Frames -/

/-- What the host operations that send and do not receive leave alone: every register but MODE, PHASE and
TXBUF, the stream and every byte of RXPAY. Before TX they write only the frame's bytes of TXBUF, and
neither the link, MODE nor the answers change. In TX no byte of TXBUF changes, and MODE only by the
transition of the command sent.
What REQ, the decoder's registers and the buffers keep once it ends is the model's (log entry 18). -/
def Obligations.SendingOperationsFrame : Prop :=
  ∀ (s t : State) (i : Instr) (p : Packet),
    (i = .beginStream ∨ i = .stopStream ∨ ∃ cmd addr off pl, i = .issue cmd addr off pl) →
    s.packetSent i = some p → exec i s = .next t →
    t.devAddr = s.devAddr ∧ t.req = s.req ∧ t.hdr = s.hdr ∧ t.declLen = s.declLen
    ∧ t.rxCk = s.rxCk ∧ t.calcCk = s.calcCk
    ∧ t.hostIn = s.hostIn ∧ t.rxStream = s.rxStream ∧ t.platform = s.platform
    ∧ (∀ a, t.rxpay.read a = s.rxpay.read a)
    ∧ (∀ a, (encodePacket p).length ≤ a → t.txbuf.read a = s.txbuf.read a)
    ∧ (s.phase ≠ .tx → t.link = s.link ∧ t.mode = s.mode ∧ t.answers = s.answers)
    ∧ (s.phase = .tx → (∀ a, t.txbuf.read a = s.txbuf.read a)
        ∧ (t.mode = s.mode ∨ (p.cmd = 0x02 ∧ t.mode = .streaming)
          ∨ (p.cmd = 0x0F ∧ t.mode = .idle)))

/-- What the operations that receive leave alone: MODE, DEV_ADDR, REQ and the ports' inputs always. Once
receiving, and where they send nothing, also the link and every byte of TXBUF. HDR and DECL_LEN change
only in the answer to the header read, RX_CK and CALC_CK only in the answer to the checksum read, and
RXPAY only where the payload read completes, and then only below DECL_LEN. Where they send, TXBUF changes
only in the bytes of the frame, and only before TX.
What REQ, the decoder's registers and the buffers keep once it ends is the model's (log entry 18). -/
def Obligations.ReceivingOperationsFrame : Prop :=
  ∀ (s t : State) (i : Instr),
    (i = .awaitResponse ∨ i = .configureAddress ∨ i = .getCoefficients
      ∨ ∃ expected, i = .receiveFrame expected) →
    exec i s = .next t →
    t.mode = s.mode ∧ t.devAddr = s.devAddr ∧ t.req = s.req
    ∧ t.hostIn = s.hostIn ∧ t.platform = s.platform
    ∧ (s.receiving = true ∨ s.packetSent i = none →
        t.link = s.link ∧ ∀ a, t.txbuf.read a = s.txbuf.read a)
    ∧ (s.phase = .tx → ∀ a, t.txbuf.read a = s.txbuf.read a)
    ∧ (s.phase ≠ .tx → t.link = s.link)
    ∧ (∀ p, s.packetSent i = some p →
        ∀ a, (encodePacket p).length ≤ a → t.txbuf.read a = s.txbuf.read a)
    ∧ (s.phase ≠ .rxHeader → t.hdr = s.hdr ∧ t.declLen = s.declLen)
    ∧ (s.phase ≠ .rxChecksum → t.rxCk = s.rxCk ∧ t.calcCk = s.calcCk)
    ∧ (s.phase ≠ .rxPayload ∨ t.phase ≠ .rxChecksum → ∀ a, t.rxpay.read a = s.rxpay.read a)
    ∧ (∀ a, s.declLen.toNat ≤ a → t.rxpay.read a = s.rxpay.read a)

/-- What the wire commands leave alone: every register but MODE, PHASE and TXBUF, the stream, the host
port's input and every byte of RXPAY. Before TX they write only the frame's bytes of TXBUF, and neither
the link nor MODE changes. In TX no byte of TXBUF changes, and MODE only by the transition of the command
sent. That they leave what Decode writes alone, and the reads to the operation in REQ, is the model's
choice (log entry 12).
What REQ, the decoder's registers and the buffers keep once it ends is the model's (log entry 18). -/
def Obligations.WireCommandsFrame : Prop :=
  ∀ (s t : State) (i : Instr) (p : Packet),
    isHostOp i = false → s.packetSent i = some p → exec i s = .next t →
    t.devAddr = s.devAddr ∧ t.req = s.req ∧ t.hdr = s.hdr ∧ t.declLen = s.declLen
    ∧ t.rxCk = s.rxCk ∧ t.calcCk = s.calcCk
    ∧ t.hostIn = s.hostIn ∧ t.rxStream = s.rxStream ∧ t.platform = s.platform
    ∧ (∀ a, t.rxpay.read a = s.rxpay.read a)
    ∧ (∀ a, (encodePacket p).length ≤ a → t.txbuf.read a = s.txbuf.read a)
    ∧ (s.phase ≠ .tx → t.link = s.link ∧ t.mode = s.mode ∧ t.answers = s.answers)
    ∧ (s.phase = .tx → (∀ a, t.txbuf.read a = s.txbuf.read a)
        ∧ (t.mode = s.mode ∨ (p.cmd = 0x02 ∧ t.mode = .streaming)
          ∨ (p.cmd = 0x0F ∧ t.mode = .idle)))

/-! ## Typed operations and their plain equivalents -/

/-- In Idle, BEGIN_STREAM acts like ISSUE GetDistance, DEV_ADDR; in both modes STOP_STREAM acts like
ISSUE Stop, DEV_ADDR (30_encoding R79). -/
def Obligations.TypedSendsActLikeIssue : Prop :=
  ∀ (s : State),
    (s.mode = .idle → exec .beginStream s = exec (.issue 0x02 s.devAddr 0 []) s)
    ∧ exec .stopStream s = exec (.issue 0x0F s.devAddr 0 []) s

/-- CONFIGURE_ADDRESS and GET_COEFFICIENTS act like their ISSUE followed by AWAIT_RESPONSE, except for
what they make of the packet (30_encoding R79), transaction by transaction: the same step up to TX; then,
where the write completes, the step of ISSUE and the first of AWAIT_RESPONSE in one; then each read's step
like AWAIT_RESPONSE's, but for the response.
What REQ, the decoder's registers and the buffers keep once they end is the model's (log entry 18). -/
def Obligations.TypedReceivesActLikeIssueThenAwait : Prop :=
  ∀ (s : State) (i : Instr) (p : Packet),
    (i = .configureAddress ∨ i = .getCoefficients) → s.packetSent i = some p → s.mode = .idle →
    (s.starting = true → exec i s = exec (.issue p.cmd p.addr p.off p.payload) s)
    ∧ (∀ as, s.phase = .tx → s.answers = .complete :: as →
        ∃ t u, exec (.issue p.cmd p.addr p.off p.payload) s = .next t
          ∧ exec .awaitResponse t = .next u
          ∧ exec i s = .next { u with hostOut := s.hostOut })
    ∧ (s.receiving = true → ∀ u, exec .awaitResponse s = .next u →
        ∃ v, exec i s = .next v
          ∧ v = { u with hostOut := v.hostOut }
          ∧ (u.hostOut = s.hostOut → v.hostOut = s.hostOut)
          ∧ (u.hostOut ≠ s.hostOut → ∃ r, v.hostOut = s.hostOut ++ [r]))

/-! ## The machine -/

/-- A step runs the decoded instruction. In READY it is the request at the front of the host port,
latched and taken off it; in TX it is the frame in TXBUF; in the other phases it is the operation in REQ
(42_session_ops R165, R166). That acceptance and the operation's first step are one, and that TX runs the
wire command, is the model's reading (log entries 1 and 12). -/
def Obligations.StepRunsTheDecodedInstruction : Prop :=
  ∀ (s : State) (i : Instr), s.platform = [] → i.wellFormed = true →
    (∀ rest, s.phase = .ready → isHostOp i = true → s.hostIn = encode i ++ rest →
      step s = exec i (s.latch (requestOf i) rest))
    ∧ (s.phase = .tx → isHostOp i = false → s.txFrame = encode i → step s = exec i s)
    ∧ (s.phase ≠ .ready → s.phase ≠ .tx → decodeRequest s.req = .ok i → step s = exec i s)

/-- The run of a request is the run of its operation: from READY with a host operation's encoding at the
host port, as many steps of the machine as the operation takes do what that operation does step by step,
through TX too, where the machine runs the wire command in TXBUF (42_session_ops R165, R166; log entry
12). -/
def Obligations.StepsRunTheOperationToItsEnd : Prop :=
  ∀ (s : State) (i : Instr) (rest : List Byte) (n : Nat),
    s.inv = true → s.platform = [] → s.phase = .ready → i.wellFormed = true → isHostOp i = true →
    s.hostIn = encode i ++ rest →
    let s0 := s.latch (requestOf i) rest
    (∀ m ≤ n, ∀ u, repeatStep (exec i) m s0 = .next u → u.phase ≠ .ready) →
    repeatStep step (n + 1) s = repeatStep (exec i) (n + 1) s0

/-- The platform's input is read off one entry a step, and an entry that is not a reset does nothing
else (70_reset R260). -/
def Obligations.PlatformRunIsTransparent : Prop :=
  ∀ (s : State) (ps : List PlatformInput), s.platform = .run :: ps →
    step s = blockStep { s with platform := ps }

/-- Every accepted request gets exactly one host response: a step that accepts one or goes on with one
either returns one response and ends in READY, or returns none and ends with a transaction outstanding
(42_session_ops R165; 00_scope R7; that CHECK and INTERPRET pass within a step is log entry 1). In a run,
a step that does not respond issues the next transaction, further on in the operation's order of phases,
or changes nothing but the answers to come; an outstanding transaction is answered once, before the next
is issued (20_memory R52; 42_session_ops R166). -/
def Obligations.OneResponsePerRequest : Prop :=
  ∀ (s t : State), s.platform = [] →
    (s.phase ≠ .ready ∨ (takeRequest s.hostIn).isSome = true) → step s = .next t →
    ((t.phase = .ready ∧ ∃ r, t.hostOut = s.hostOut ++ [r])
      ∨ (t.waiting = true ∧ t.hostOut = s.hostOut))
    ∧ (s.inv = true →
      (t = { s with answers := t.answers }
        ∨ ((t.phase = .ready ∨ s.phase.rank < t.phase.rank)
          ∧ (s.waiting = true → ∃ a, a ≠ .silent ∧ s.answers = a :: t.answers)))
      ∧ (s.waiting = false → t.answers = s.answers))

/-- A request offered while an operation is in progress is held, and one not offered whole is not begun
(42_session_ops R165; 30_encoding R72). That the block then stays as it is, is the model's (log entry 5),
and so is what REQ, the decoder's registers and the buffers keep in READY (log entry 18). -/
def Obligations.OfferedRequestIsHeld : Prop :=
  ∀ (s : State), s.platform = [] →
    (∀ t, s.phase ≠ .ready → step s = .next t → t.hostIn = s.hostIn)
    ∧ (s.phase = .ready → takeRequest s.hostIn = none → step s = .next s)

/-- A transaction that is not answered holds the block: the step changes nothing but the list of answers
to come, and with none left it changes nothing at all (70_reset R266; log entries 2 and 3). -/
def Obligations.UnansweredTransactionHoldsTheBlock : Prop :=
  ∀ (s : State), s.inv = true → s.platform = [] → s.waiting = true →
    (s.answers = [] → step s = .next s)
    ∧ (∀ as, s.answers = .silent :: as → step s = .next { s with answers := as })

/-- The values reset leaves (70_reset R260; 10_state R20): of the registers the spec gives one for. -/
def Obligations.ResetValues : Prop :=
  State.reset.mode = .idle ∧ State.reset.devAddr = 0x01 ∧ State.reset.phase = .ready

/-- Reset applied by the platform, in any state: the session registers and PHASE at their reset values,
no response, no answer used up, nothing drained or sent but what an outstanding transaction had already
moved, and of the host port's input nothing taken but the request that READY had already latched where the
free bit says so (70_reset R260 to R262; log entry 11). -/
def Obligations.PlatformResetAtAnyTime : Prop :=
  ∀ (s : State) (latched : Bool) (moved : Nat) (ps : List PlatformInput),
    s.platform = .reset latched moved :: ps →
    ∃ t, step s = .next t
      ∧ t.mode = .idle ∧ t.devAddr = 0x01 ∧ t.phase = .ready
      ∧ t.hostOut = s.hostOut ∧ t.answers = s.answers ∧ t.platform = ps
      ∧ (s.waiting = false → t.link = s.link ∧ t.rxStream = s.rxStream)
      ∧ (s.phase = .tx → t.rxStream = s.rxStream ∧ t.link = s.link ++ s.txFrame.take moved)
      ∧ (s.phase = .rxHeader → t.link = s.link ∧ t.rxStream = s.rxStream.drop (min moved 10))
      ∧ (s.phase = .rxPayload →
          t.link = s.link ∧ t.rxStream = s.rxStream.drop (min moved s.declLen.toNat))
      ∧ (s.phase = .rxChecksum → t.link = s.link ∧ t.rxStream = s.rxStream.drop (min moved 1))
      ∧ (s.phase ≠ .ready ∨ latched = false → t.hostIn = s.hostIn)
      ∧ (s.phase = .ready → latched = true →
          (takeRequest s.hostIn = none → t.hostIn = s.hostIn)
          ∧ ∀ r rest, takeRequest s.hostIn = some (r, rest) → t.hostIn = rest)

/-- The invariant of Safety.lean holds right after reset. -/
def Obligations.InvariantAtReset : Prop := State.reset.inv = true

/-- Every step keeps the invariant: the buffers stay in canonical form and inside their bounds, TXBUF
holds the frame of the operation in REQ while a write is outstanding, and the operation in REQ is one
that receives, in the mode it needs, with the marker seen and DECL_LEN the header's, while a read is
(10_state R23, R25; 42_session_ops R151, R166). That PHASE is never CHECK or INTERPRET between two steps is
the model's reading of 00_scope R7 (log entry 1). -/
def Obligations.StepKeepsInvariant : Prop :=
  ∀ (s t : State), s.inv = true → step s = .next t → t.inv = true

/-- From a state with the invariant no step faults or is refused: every request, answer and reset has a
next state. -/
def Obligations.InvariantStepNeverStops : Prop :=
  ∀ (s : State), s.inv = true → ∃ t, step s = .next t

/-- MODE changes only after a GetDistance or Stop frame has been written whole: no other event enters or
leaves Streaming, reset aside (10_state R21; 42_session_ops R152). -/
def Obligations.ModeChangesOnlyAfterAWrite : Prop :=
  ∀ (s t : State), (∀ l m ps, s.platform ≠ .reset l m :: ps) → step s = .next t →
    t.mode ≠ s.mode →
    ∃ p : Packet, t.link = s.link ++ encodePacket p
      ∧ ((p.cmd = 0x02 ∧ t.mode = .streaming) ∨ (p.cmd = 0x0F ∧ t.mode = .idle))

/-- Only SET_DEVICE_ADDRESS changes DEV_ADDR, reset aside: a step that changes it runs a request, the one
it accepts in READY or the one in progress, with OP 0x07, and writes its A (10_state R22). -/
def Obligations.OnlySetDeviceAddressWritesDevAddr : Prop :=
  ∀ (s t : State), (∀ l m ps, s.platform ≠ .reset l m :: ps) → step s = .next t →
    t.devAddr = s.devAddr
    ∨ ∃ r rest, ((s.phase = .ready ∧ takeRequest s.hostIn = some (r, rest))
          ∨ (s.phase ≠ .ready ∧ r = s.req))
        ∧ r.op = 0x07 ∧ t.devAddr = r.a

/-- The ports only move forward: bytes are taken from the front of the stream and never put back, bytes
are added at the back of the link, responses are added, requests are taken from the front, and a step uses
at most one answer (20_memory R40, R46, R47, R49, R52). Reset included. -/
def Obligations.PortsOnlyMoveForward : Prop :=
  ∀ (s t : State), step s = .next t →
    (∃ k, t.rxStream = s.rxStream.drop k)
    ∧ (∃ bs, t.link = s.link ++ bs)
    ∧ (∃ rs, t.hostOut = s.hostOut ++ rs)
    ∧ (∃ k, t.hostIn = s.hostIn.drop k)
    ∧ (∃ k ≤ 1, t.answers = s.answers.drop k)
end

