-- ==== Sys2Proof/Laws/Codec.lean ====
section
/-! SUPPORT. Byte order, lengths of encodings, and the header of a frame. -/

namespace Sys2Proof

@[simp] theorem le16_low_high (v : Half) : le16 (lowByte v) (highByte v) = v := by
  apply BitVec.eq_of_toNat_eq
  have h := v.isLt
  simp only [le16, lowByte, highByte, BitVec.toNat_ofNat]
  omega

@[simp] theorem lowByte_le16 (b0 b1 : Byte) : lowByte (le16 b0 b1) = b0 := by
  apply BitVec.eq_of_toNat_eq
  have h0 := b0.isLt
  have h1 := b1.isLt
  simp only [le16, lowByte, BitVec.toNat_ofNat]
  omega

@[simp] theorem highByte_le16 (b0 b1 : Byte) : highByte (le16 b0 b1) = b1 := by
  apply BitVec.eq_of_toNat_eq
  have h0 := b0.isLt
  have h1 := b1.isLt
  simp only [le16, highByte, BitVec.toNat_ofNat]
  omega

theorem le16_toNat (b0 b1 : Byte) : (le16 b0 b1).toNat = b0.toNat + 256 * b1.toNat := by
  have h0 := b0.isLt
  have h1 := b1.isLt
  simp only [le16, BitVec.toNat_ofNat]
  omega

@[simp] theorem bytesLe16_length (v : Half) : (bytesLe16 v).length = 2 := rfl

/-- A payload length that fits is what its 16-bit field holds (00_scope R8). -/
theorem length_field (n : Nat) (h : n ≤ maxPayload) : (BitVec.ofNat 16 n).toNat = n := by
  rw [BitVec.toNat_ofNat]
  unfold maxPayload at h
  omega

@[simp] theorem headerBytes_length (p : Packet) : (headerBytes p).length = 10 := rfl

/-- A frame is 11 + N bytes (30_encoding R60; 40_frame_codec R102). -/
@[simp] theorem encodePacket_length (p : Packet) : (encodePacket p).length = 11 + p.payload.length := by
  simp [encodePacket]
  omega

/-- A frame byte by byte. -/
theorem encodePacket_eq (p : Packet) :
    encodePacket p
      = 0xAA :: 0xAA :: 0xAA :: 0xAA :: p.addr :: p.cmd :: lowByte p.off :: highByte p.off
        :: lowByte (BitVec.ofNat 16 p.payload.length) :: highByte (BitVec.ofNat 16 p.payload.length)
        :: (p.payload ++ [checksum p.addr p.cmd p.off p.payload]) := rfl

@[simp] theorem Request.bytes_length (r : Request) : r.bytes.length = 8 + r.payload.length := by
  simp [Request.bytes]
  omega

end Sys2Proof
end

