-- ==== Sys2Proof/Laws/Memory.lean ====
section
/-! SUPPORT. The buffers: what a read gives after a write, and that a write keeps the canonical form. -/

namespace Sys2Proof.Machine

theorem Memory.read_nil (x : Nat) : Memory.read [] x = Memory.unlisted := rfl

theorem Memory.read_cons (c : Host.Cell) (m : Memory) (x : Nat) :
    Memory.read (c :: m) x = if x = c.1 then c.2 else Memory.read m x := by
  obtain ⟨a, b⟩ := c
  unfold Memory.read
  by_cases h : x = a
  · simp [List.lookup, h]
  · have : (x == a) = false := by simpa using h
    simp [List.lookup, this, h]

/-- A buffer whose listed addresses all lie elsewhere reads as unlisted. -/
theorem Memory.read_of_absent (m : Memory) (x : Nat) (h : ∀ c ∈ m, c.1 ≠ x) :
    m.read x = Memory.unlisted := by
  induction m with
  | nil => rfl
  | cons c m ih =>
    have hc : x ≠ c.1 := fun e => h c (by simp) e.symm
    rw [Memory.read_cons, if_neg hc, ih fun d hd => h d (by simp [hd])]

/-- Reading through a join: the first part where it lists the address, else the second. -/
theorem Memory.read_append_of_absent (m m' : Memory) (x : Nat) (h : ∀ c ∈ m, c.1 ≠ x) :
    Memory.read (m ++ m') x = m'.read x := by
  induction m with
  | nil => rfl
  | cons c m ih =>
    have hc : x ≠ c.1 := fun e => h c (by simp) e.symm
    rw [List.cons_append, Memory.read_cons, if_neg hc, ih fun d hd => h d (by simp [hd])]

theorem Memory.read_append_of_absent_right (m m' : Memory) (x : Nat) (h : ∀ c ∈ m', c.1 ≠ x) :
    Memory.read (m ++ m') x = m.read x := by
  induction m with
  | nil => rw [List.nil_append, Memory.read_of_absent m' x h, Memory.read_nil]
  | cons c m ih => rw [List.cons_append, Memory.read_cons, Memory.read_cons, ih]

/-- A filter that keeps an address keeps what is read there. -/
theorem Memory.read_filter (m : Memory) (f : Nat → Bool) (x : Nat) (h : f x = true) :
    Memory.read (m.filter fun c => f c.1) x = m.read x := by
  induction m with
  | nil => rfl
  | cons c m ih =>
    by_cases hc : f c.1 = true
    · rw [List.filter_cons_of_pos (p := fun c : Host.Cell => f c.1) hc, Memory.read_cons, Memory.read_cons, ih]
    · rw [List.filter_cons_of_neg (p := fun c : Host.Cell => f c.1) hc, Memory.read_cons, ih, if_neg]
      rintro rfl
      exact hc h

theorem Memory.cells_range (a : Nat) (bs : List Byte) :
    ∀ c ∈ Memory.cells a bs, a ≤ c.1 ∧ c.1 < a + bs.length := by
  induction bs generalizing a with
  | nil => simp [Memory.cells]
  | cons b bs ih =>
    intro c hc
    unfold Memory.cells at hc
    split at hc
    · have := ih (a + 1) c hc
      simp only [List.length_cons]
      omega
    · rcases List.mem_cons.mp hc with rfl | hc
      · simp
      · have := ih (a + 1) c hc
        simp only [List.length_cons]
        omega

theorem Memory.read_cells (a : Nat) (bs : List Byte) (x : Nat) (h : a ≤ x) :
    Memory.read (Memory.cells a bs) x = bs.getD (x - a) Memory.unlisted := by
  induction bs generalizing a with
  | nil => simp [Memory.cells, Memory.read_nil]
  | cons b bs ih =>
    by_cases hx : x = a
    · subst hx
      have habs : ∀ c ∈ Memory.cells (x + 1) bs, c.1 ≠ x := fun c hc =>
        by have := Memory.cells_range (x + 1) bs c hc; omega
      unfold Memory.cells
      split
      · rename_i hb
        rw [Memory.read_of_absent _ _ habs]
        simp [hb]
      · rw [Memory.read_cons]
        simp
    · have e : x - a = x - (a + 1) + 1 := by omega
      unfold Memory.cells
      split
      · rw [ih (a + 1) (by omega), e]
        simp
      · rw [Memory.read_cons, if_neg hx, ih (a + 1) (by omega), e]
        simp

/-- Everything a write does to what is read: the bytes written where it wrote, the old ones elsewhere. -/
theorem Memory.read_writeBytes (m : Memory) (a : Nat) (bs : List Byte) (x : Nat) :
    (m.writeBytes a bs).read x
      = if a ≤ x ∧ x < a + bs.length then bs.getD (x - a) Memory.unlisted else m.read x := by
  unfold Memory.writeBytes
  by_cases hlt : x < a
  · rw [if_neg (by omega), List.append_assoc, Memory.read_append_of_absent_right]
    · exact Memory.read_filter m (fun n => decide (n < a)) x (by simpa using hlt)
    · intro c hc
      rcases List.mem_append.mp hc with hc | hc
      · have := Memory.cells_range a bs c hc; omega
      · have := (List.mem_filter.mp hc).2
        simp only [decide_eq_true_eq] at this
        omega
  · have h1 : ∀ c ∈ m.filter (fun c => decide (c.1 < a)), c.1 ≠ x := by
      intro c hc
      have := (List.mem_filter.mp hc).2
      simp only [decide_eq_true_eq] at this
      omega
    rw [List.append_assoc, Memory.read_append_of_absent _ _ _ h1]
    by_cases hin : x < a + bs.length
    · rw [if_pos ⟨by omega, hin⟩, Memory.read_append_of_absent_right,
        Memory.read_cells a bs x (by omega)]
      intro c hc
      have := (List.mem_filter.mp hc).2
      simp only [decide_eq_true_eq] at this
      omega
    · rw [if_neg (by omega), Memory.read_append_of_absent]
      · exact Memory.read_filter m (fun n => decide (a + bs.length ≤ n)) x
          (by simpa using Nat.not_lt.mp hin)
      · intro c hc
        have := Memory.cells_range a bs c hc
        omega

theorem Memory.read_writeBytes_outside (m : Memory) (bs : List Byte) (x : Nat) (h : bs.length ≤ x) :
    (m.writeBytes 0 bs).read x = m.read x := by
  rw [Memory.read_writeBytes, if_neg (by omega)]

theorem Memory.readBytes_length (m : Memory) (a n : Nat) : (m.readBytes a n).length = n := by
  simp [Memory.readBytes]

/-- The bytes just written are the bytes read back. -/
theorem Memory.readBytes_writeBytes (m : Memory) (a : Nat) (bs : List Byte) :
    (m.writeBytes a bs).readBytes a bs.length = bs := by
  apply List.ext_getElem (Memory.readBytes_length _ _ _)
  intro i h1 h2
  simp [Memory.readBytes, Memory.read_writeBytes, h2]

/-! ## The canonical form -/

theorem Memory.wf_cons (c : Host.Cell) (m : Memory) :
    Memory.wf (c :: m) = true
      ↔ c.2 ≠ Memory.unlisted ∧ (∀ d ∈ m.head?, c.1 < d.1) ∧ m.wf = true := by
  cases m with
  | nil => simp [Memory.wf]
  | cons d m => simp [Memory.wf, and_assoc]

/-- The canonical form, said over all entries. -/
theorem Memory.wf_iff (m : Memory) :
    m.wf = true
      ↔ m.Pairwise (fun c d => c.1 < d.1) ∧ ∀ c ∈ m, c.2 ≠ Memory.unlisted := by
  induction m with
  | nil => simp [Memory.wf]
  | cons c m ih =>
    rw [Memory.wf_cons, ih, List.pairwise_cons]
    constructor
    · rintro ⟨hc, hh, hp, hm⟩
      refine ⟨⟨?_, hp⟩, ?_⟩
      · intro d hd
        cases m with
        | nil => simp at hd
        | cons e m =>
          have he : c.1 < e.1 := hh e (by simp)
          rcases List.mem_cons.mp hd with rfl | hd
          · exact he
          · exact lt_trans he ((List.pairwise_cons.mp hp).1 d hd)
      · intro d hd
        rcases List.mem_cons.mp hd with rfl | hd
        · exact hc
        · exact hm d hd
    · rintro ⟨⟨h1, hp⟩, hm⟩
      exact ⟨hm c (by simp), fun d hd => h1 d (List.mem_of_mem_head? hd), hp,
        fun d hd => hm d (by simp [hd])⟩

theorem Memory.cells_wf (a : Nat) (bs : List Byte) : (Memory.cells a bs).wf = true := by
  induction bs generalizing a with
  | nil => rfl
  | cons b bs ih =>
    unfold Memory.cells
    split
    · exact ih (a + 1)
    · rename_i hb
      rw [Memory.wf_cons]
      refine ⟨hb, fun d hd => ?_, ih (a + 1)⟩
      have := Memory.cells_range (a + 1) bs d (List.mem_of_mem_head? hd)
      simp only
      omega

/-- A write keeps the canonical form. -/
theorem Memory.writeBytes_wf (m : Memory) (a : Nat) (bs : List Byte) (h : m.wf = true) :
    (m.writeBytes a bs).wf = true := by
  obtain ⟨hp, hz⟩ := (Memory.wf_iff m).mp h
  obtain ⟨cp, cz⟩ := (Memory.wf_iff _).mp (Memory.cells_wf a bs)
  rw [Memory.wf_iff]
  unfold Memory.writeBytes
  refine ⟨?_, ?_⟩
  · rw [List.append_assoc, List.pairwise_append, List.pairwise_append]
    refine ⟨hp.filter _, ⟨cp, hp.filter _, ?_⟩, ?_⟩
    · intro c hc d hd
      have h1 := Memory.cells_range a bs c hc
      have h2 := (List.mem_filter.mp hd).2
      simp only [decide_eq_true_eq] at h2
      omega
    · intro c hc d hd
      have h1 := (List.mem_filter.mp hc).2
      simp only [decide_eq_true_eq] at h1
      rcases List.mem_append.mp hd with hd | hd
      · have h2 := Memory.cells_range a bs d hd; omega
      · have h2 := (List.mem_filter.mp hd).2
        simp only [decide_eq_true_eq] at h2
        omega
  · intro c hc
    simp only [List.mem_append] at hc
    rcases hc with (hc | hc) | hc
    · exact hz c (List.mem_filter.mp hc).1
    · exact cz c hc
    · exact hz c (List.mem_filter.mp hc).1

/-- A write inside a buffer leaves every listed address inside it. -/
theorem Memory.writeBytes_below (m : Memory) (a : Nat) (bs : List Byte) (size : Nat)
    (h : m.below size = true) (hs : a + bs.length ≤ size) :
    (m.writeBytes a bs).below size = true := by
  simp only [Memory.below, List.all_eq_true, decide_eq_true_eq] at h ⊢
  intro c hc
  simp only [Memory.writeBytes, List.mem_append] at hc
  rcases hc with (hc | hc) | hc
  · exact h c (List.mem_filter.mp hc).1
  · have := Memory.cells_range a bs c hc; omega
  · exact h c (List.mem_filter.mp hc).1

theorem Memory.read_listed (m : Memory) (h : m.wf = true) (c : Host.Cell) (hc : c ∈ m) :
    m.read c.1 = c.2 := by
  induction m with
  | nil => simp at hc
  | cons d m ih =>
    rw [Memory.read_cons]
    rcases List.mem_cons.mp hc with rfl | hc
    · simp
    · have hp := (Memory.wf_iff _).mp h
      have := (List.pairwise_cons.mp hp.1).1 c hc
      rw [if_neg (by omega)]
      exact ih ((Memory.wf_cons d m).mp h).2.2 hc

/-- Two buffers in canonical form that read alike everywhere are the same data. -/
theorem Memory.ext (m m' : Memory) (h : m.wf = true) (h' : m'.wf = true)
    (hr : ∀ x, m.read x = m'.read x) : m = m' := by
  have sub : ∀ (p q : Memory), p.wf = true → q.wf = true → (∀ x, p.read x = q.read x) →
      ∀ c ∈ p, c ∈ q := by
    intro p q hp hq hr c hc
    have hv := Memory.read_listed p hp c hc
    by_contra hn
    have hcz := ((Memory.wf_iff p).mp hp).2 c hc
    by_cases hx : ∃ d ∈ q, d.1 = c.1
    · obtain ⟨d, hd, hdc⟩ := hx
      have hdv := Memory.read_listed q hq d hd
      have : d = c := Prod.ext hdc (by rw [← hdv, hdc, ← hr, hv])
      exact hn (this ▸ hd)
    · exact hcz (by
        rw [← hv, hr, Memory.read_of_absent q c.1 (fun d hd e => hx ⟨d, hd, e⟩)])
  have hp := ((Memory.wf_iff m).mp h).1
  have hp' := ((Memory.wf_iff m').mp h').1
  have nd : ∀ q : Memory, q.Pairwise (fun c d => c.1 < d.1) → q.Nodup := fun q hq =>
    hq.imp fun {a b} hab e => by subst e; exact lt_irrefl _ hab
  have perm : m.Perm m' := (List.perm_ext_iff_of_nodup (nd m hp) (nd m' hp')).mpr
    fun c => ⟨sub m m' h h' hr c, sub m' m h' h (fun x => (hr x).symm) c⟩
  exact perm.eq_of_pairwise (le := fun c d => c.1 < d.1)
    (fun a b _ _ hab hba => absurd hab (Nat.lt_asymm hba)) hp hp'

/-- Writing what is already there changes nothing. -/
theorem Memory.writeBytes_same (m : Memory) (bs : List Byte) (h : m.wf = true)
    (hr : m.readBytes 0 bs.length = bs) : m.writeBytes 0 bs = m := by
  apply Memory.ext _ _ (Memory.writeBytes_wf m 0 bs h) h
  intro x
  rw [Memory.read_writeBytes]
  split
  · rename_i hx
    conv_lhs => rw [← hr]
    have : x < bs.length := by omega
    simp [Memory.readBytes, this]
  · rfl

end Sys2Proof.Machine
end

