-- ==== Sys2Proof/Laws/PerInstr.lean ====
section
/-! SUPPORT. One fact about the encoding, said of every instruction: how long it is. -/

namespace Sys2Proof.Laws.EncodedLength

/-- The bytes before and after the payload: 11 for a frame (30_encoding R60), 8 for a request (R70). -/
def overhead : Instr → Nat
  | .frameGetDistance _ _ _ => 11
  | .frameStop _ _ _ => 11
  | .frameAcknowledge _ _ _ => 11
  | .frameGetCorrectionCoefficients _ _ _ => 11
  | .frameConfigureAddress _ _ _ => 11
  | .issue _ _ _ _ => 8
  | .awaitResponse => 8
  | .configureAddress => 8
  | .getCoefficients => 8
  | .beginStream => 8
  | .stopStream => 8
  | .receiveFrame _ => 8
  | .setDeviceAddress _ => 8

/-- An instruction's encoding is its overhead and its payload. -/
def Statement (i : Instr) : Prop := (encode i).length = overhead i + i.payload.length

theorem frameGetDistance (addr : Byte) (off : Half) (payload : List Byte) :
    Statement (.frameGetDistance addr off payload) := encodePacket_length _

theorem frameStop (addr : Byte) (off : Half) (payload : List Byte) :
    Statement (.frameStop addr off payload) := encodePacket_length _

theorem frameAcknowledge (addr : Byte) (off : Half) (payload : List Byte) :
    Statement (.frameAcknowledge addr off payload) := encodePacket_length _

theorem frameGetCorrectionCoefficients (addr : Byte) (off : Half) (payload : List Byte) :
    Statement (.frameGetCorrectionCoefficients addr off payload) := encodePacket_length _

theorem frameConfigureAddress (addr : Byte) (off : Half) (payload : List Byte) :
    Statement (.frameConfigureAddress addr off payload) := encodePacket_length _

theorem issue (cmd addr : Byte) (off : Half) (payload : List Byte) :
    Statement (.issue cmd addr off payload) := Request.bytes_length _

theorem awaitResponse : Statement .awaitResponse := Request.bytes_length _

theorem configureAddress : Statement .configureAddress := Request.bytes_length _

theorem getCoefficients : Statement .getCoefficients := Request.bytes_length _

theorem beginStream : Statement .beginStream := Request.bytes_length _

theorem stopStream : Statement .stopStream := Request.bytes_length _

theorem receiveFrame (expected : Half) : Statement (.receiveFrame expected) := Request.bytes_length _

theorem setDeviceAddress (addr : Byte) : Statement (.setDeviceAddress addr) := Request.bytes_length _

end Sys2Proof.Laws.EncodedLength
end

