-- ==== Sys2Proof/Laws/State.lean ====
section
/-! SUPPORT. What each named update of the state does to each field, by definition. -/

namespace Sys2Proof.Machine

variable (s : State)

/-! ## setPhase -/

@[simp] theorem State.setPhase_mode (p : Phase) : (s.setPhase p).mode = s.mode := rfl
@[simp] theorem State.setPhase_devAddr (p : Phase) : (s.setPhase p).devAddr = s.devAddr := rfl
@[simp] theorem State.setPhase_phase (p : Phase) : (s.setPhase p).phase = p := rfl
@[simp] theorem State.setPhase_req (p : Phase) : (s.setPhase p).req = s.req := rfl
@[simp] theorem State.setPhase_hdr (p : Phase) : (s.setPhase p).hdr = s.hdr := rfl
@[simp] theorem State.setPhase_declLen (p : Phase) : (s.setPhase p).declLen = s.declLen := rfl
@[simp] theorem State.setPhase_rxCk (p : Phase) : (s.setPhase p).rxCk = s.rxCk := rfl
@[simp] theorem State.setPhase_calcCk (p : Phase) : (s.setPhase p).calcCk = s.calcCk := rfl
@[simp] theorem State.setPhase_txbuf (p : Phase) : (s.setPhase p).txbuf = s.txbuf := rfl
@[simp] theorem State.setPhase_rxpay (p : Phase) : (s.setPhase p).rxpay = s.rxpay := rfl
@[simp] theorem State.setPhase_rxStream (p : Phase) : (s.setPhase p).rxStream = s.rxStream := rfl
@[simp] theorem State.setPhase_answers (p : Phase) : (s.setPhase p).answers = s.answers := rfl
@[simp] theorem State.setPhase_link (p : Phase) : (s.setPhase p).link = s.link := rfl
@[simp] theorem State.setPhase_hostIn (p : Phase) : (s.setPhase p).hostIn = s.hostIn := rfl
@[simp] theorem State.setPhase_hostOut (p : Phase) : (s.setPhase p).hostOut = s.hostOut := rfl
@[simp] theorem State.setPhase_platform (p : Phase) : (s.setPhase p).platform = s.platform := rfl

/-! ## latch -/

@[simp] theorem State.latch_mode (r : Request) (rest : List Byte) :
    (s.latch r rest).mode = s.mode := rfl
@[simp] theorem State.latch_devAddr (r : Request) (rest : List Byte) :
    (s.latch r rest).devAddr = s.devAddr := rfl
@[simp] theorem State.latch_phase (r : Request) (rest : List Byte) :
    (s.latch r rest).phase = .check := rfl
@[simp] theorem State.latch_req (r : Request) (rest : List Byte) : (s.latch r rest).req = r := rfl
@[simp] theorem State.latch_hdr (r : Request) (rest : List Byte) :
    (s.latch r rest).hdr = s.hdr := rfl
@[simp] theorem State.latch_declLen (r : Request) (rest : List Byte) :
    (s.latch r rest).declLen = s.declLen := rfl
@[simp] theorem State.latch_rxCk (r : Request) (rest : List Byte) :
    (s.latch r rest).rxCk = s.rxCk := rfl
@[simp] theorem State.latch_calcCk (r : Request) (rest : List Byte) :
    (s.latch r rest).calcCk = s.calcCk := rfl
@[simp] theorem State.latch_txbuf (r : Request) (rest : List Byte) :
    (s.latch r rest).txbuf = s.txbuf := rfl
@[simp] theorem State.latch_rxpay (r : Request) (rest : List Byte) :
    (s.latch r rest).rxpay = s.rxpay := rfl
@[simp] theorem State.latch_rxStream (r : Request) (rest : List Byte) :
    (s.latch r rest).rxStream = s.rxStream := rfl
@[simp] theorem State.latch_answers (r : Request) (rest : List Byte) :
    (s.latch r rest).answers = s.answers := rfl
@[simp] theorem State.latch_link (r : Request) (rest : List Byte) :
    (s.latch r rest).link = s.link := rfl
@[simp] theorem State.latch_hostIn (r : Request) (rest : List Byte) :
    (s.latch r rest).hostIn = rest := rfl
@[simp] theorem State.latch_hostOut (r : Request) (rest : List Byte) :
    (s.latch r rest).hostOut = s.hostOut := rfl
@[simp] theorem State.latch_platform (r : Request) (rest : List Byte) :
    (s.latch r rest).platform = s.platform := rfl

/-! ## setDevAddr -/

@[simp] theorem State.setDevAddr_mode (a : Byte) : (s.setDevAddr a).mode = s.mode := rfl
@[simp] theorem State.setDevAddr_devAddr (a : Byte) : (s.setDevAddr a).devAddr = a := rfl
@[simp] theorem State.setDevAddr_phase (a : Byte) : (s.setDevAddr a).phase = s.phase := rfl
@[simp] theorem State.setDevAddr_req (a : Byte) : (s.setDevAddr a).req = s.req := rfl
@[simp] theorem State.setDevAddr_hdr (a : Byte) : (s.setDevAddr a).hdr = s.hdr := rfl
@[simp] theorem State.setDevAddr_declLen (a : Byte) : (s.setDevAddr a).declLen = s.declLen := rfl
@[simp] theorem State.setDevAddr_rxCk (a : Byte) : (s.setDevAddr a).rxCk = s.rxCk := rfl
@[simp] theorem State.setDevAddr_calcCk (a : Byte) : (s.setDevAddr a).calcCk = s.calcCk := rfl
@[simp] theorem State.setDevAddr_txbuf (a : Byte) : (s.setDevAddr a).txbuf = s.txbuf := rfl
@[simp] theorem State.setDevAddr_rxpay (a : Byte) : (s.setDevAddr a).rxpay = s.rxpay := rfl
@[simp] theorem State.setDevAddr_rxStream (a : Byte) : (s.setDevAddr a).rxStream = s.rxStream := rfl
@[simp] theorem State.setDevAddr_answers (a : Byte) : (s.setDevAddr a).answers = s.answers := rfl
@[simp] theorem State.setDevAddr_link (a : Byte) : (s.setDevAddr a).link = s.link := rfl
@[simp] theorem State.setDevAddr_hostIn (a : Byte) : (s.setDevAddr a).hostIn = s.hostIn := rfl
@[simp] theorem State.setDevAddr_hostOut (a : Byte) : (s.setDevAddr a).hostOut = s.hostOut := rfl
@[simp] theorem State.setDevAddr_platform (a : Byte) : (s.setDevAddr a).platform = s.platform := rfl

/-! ## loadTx -/

@[simp] theorem State.loadTx_mode (f : List Byte) : (s.loadTx f).mode = s.mode := rfl
@[simp] theorem State.loadTx_devAddr (f : List Byte) : (s.loadTx f).devAddr = s.devAddr := rfl
@[simp] theorem State.loadTx_phase (f : List Byte) : (s.loadTx f).phase = .tx := rfl
@[simp] theorem State.loadTx_req (f : List Byte) : (s.loadTx f).req = s.req := rfl
@[simp] theorem State.loadTx_hdr (f : List Byte) : (s.loadTx f).hdr = s.hdr := rfl
@[simp] theorem State.loadTx_declLen (f : List Byte) : (s.loadTx f).declLen = s.declLen := rfl
@[simp] theorem State.loadTx_rxCk (f : List Byte) : (s.loadTx f).rxCk = s.rxCk := rfl
@[simp] theorem State.loadTx_calcCk (f : List Byte) : (s.loadTx f).calcCk = s.calcCk := rfl
@[simp] theorem State.loadTx_txbuf (f : List Byte) :
    (s.loadTx f).txbuf = s.txbuf.writeBytes 0 f := rfl
@[simp] theorem State.loadTx_rxpay (f : List Byte) : (s.loadTx f).rxpay = s.rxpay := rfl
@[simp] theorem State.loadTx_rxStream (f : List Byte) : (s.loadTx f).rxStream = s.rxStream := rfl
@[simp] theorem State.loadTx_answers (f : List Byte) : (s.loadTx f).answers = s.answers := rfl
@[simp] theorem State.loadTx_link (f : List Byte) : (s.loadTx f).link = s.link := rfl
@[simp] theorem State.loadTx_hostIn (f : List Byte) : (s.loadTx f).hostIn = s.hostIn := rfl
@[simp] theorem State.loadTx_hostOut (f : List Byte) : (s.loadTx f).hostOut = s.hostOut := rfl
@[simp] theorem State.loadTx_platform (f : List Byte) : (s.loadTx f).platform = s.platform := rfl

/-! ## loadHeader -/

@[simp] theorem State.loadHeader_mode (h : Header) : (s.loadHeader h).mode = s.mode := rfl
@[simp] theorem State.loadHeader_devAddr (h : Header) : (s.loadHeader h).devAddr = s.devAddr := rfl
@[simp] theorem State.loadHeader_phase (h : Header) : (s.loadHeader h).phase = s.phase := rfl
@[simp] theorem State.loadHeader_req (h : Header) : (s.loadHeader h).req = s.req := rfl
@[simp] theorem State.loadHeader_hdr (h : Header) : (s.loadHeader h).hdr = h := rfl
@[simp] theorem State.loadHeader_declLen (h : Header) : (s.loadHeader h).declLen = s.declLen := rfl
@[simp] theorem State.loadHeader_rxCk (h : Header) : (s.loadHeader h).rxCk = s.rxCk := rfl
@[simp] theorem State.loadHeader_calcCk (h : Header) : (s.loadHeader h).calcCk = s.calcCk := rfl
@[simp] theorem State.loadHeader_txbuf (h : Header) : (s.loadHeader h).txbuf = s.txbuf := rfl
@[simp] theorem State.loadHeader_rxpay (h : Header) : (s.loadHeader h).rxpay = s.rxpay := rfl
@[simp] theorem State.loadHeader_rxStream (h : Header) :
    (s.loadHeader h).rxStream = s.rxStream := rfl
@[simp] theorem State.loadHeader_answers (h : Header) : (s.loadHeader h).answers = s.answers := rfl
@[simp] theorem State.loadHeader_link (h : Header) : (s.loadHeader h).link = s.link := rfl
@[simp] theorem State.loadHeader_hostIn (h : Header) : (s.loadHeader h).hostIn = s.hostIn := rfl
@[simp] theorem State.loadHeader_hostOut (h : Header) : (s.loadHeader h).hostOut = s.hostOut := rfl
@[simp] theorem State.loadHeader_platform (h : Header) :
    (s.loadHeader h).platform = s.platform := rfl

/-! ## loadDeclLen -/

@[simp] theorem State.loadDeclLen_mode (n : Half) : (s.loadDeclLen n).mode = s.mode := rfl
@[simp] theorem State.loadDeclLen_devAddr (n : Half) : (s.loadDeclLen n).devAddr = s.devAddr := rfl
@[simp] theorem State.loadDeclLen_phase (n : Half) : (s.loadDeclLen n).phase = s.phase := rfl
@[simp] theorem State.loadDeclLen_req (n : Half) : (s.loadDeclLen n).req = s.req := rfl
@[simp] theorem State.loadDeclLen_hdr (n : Half) : (s.loadDeclLen n).hdr = s.hdr := rfl
@[simp] theorem State.loadDeclLen_declLen (n : Half) : (s.loadDeclLen n).declLen = n := rfl
@[simp] theorem State.loadDeclLen_rxCk (n : Half) : (s.loadDeclLen n).rxCk = s.rxCk := rfl
@[simp] theorem State.loadDeclLen_calcCk (n : Half) : (s.loadDeclLen n).calcCk = s.calcCk := rfl
@[simp] theorem State.loadDeclLen_txbuf (n : Half) : (s.loadDeclLen n).txbuf = s.txbuf := rfl
@[simp] theorem State.loadDeclLen_rxpay (n : Half) : (s.loadDeclLen n).rxpay = s.rxpay := rfl
@[simp] theorem State.loadDeclLen_rxStream (n : Half) :
    (s.loadDeclLen n).rxStream = s.rxStream := rfl
@[simp] theorem State.loadDeclLen_answers (n : Half) : (s.loadDeclLen n).answers = s.answers := rfl
@[simp] theorem State.loadDeclLen_link (n : Half) : (s.loadDeclLen n).link = s.link := rfl
@[simp] theorem State.loadDeclLen_hostIn (n : Half) : (s.loadDeclLen n).hostIn = s.hostIn := rfl
@[simp] theorem State.loadDeclLen_hostOut (n : Half) : (s.loadDeclLen n).hostOut = s.hostOut := rfl
@[simp] theorem State.loadDeclLen_platform (n : Half) :
    (s.loadDeclLen n).platform = s.platform := rfl

/-! ## loadPayload -/

@[simp] theorem State.loadPayload_mode (pl : List Byte) : (s.loadPayload pl).mode = s.mode := rfl
@[simp] theorem State.loadPayload_devAddr (pl : List Byte) :
    (s.loadPayload pl).devAddr = s.devAddr := rfl
@[simp] theorem State.loadPayload_phase (pl : List Byte) : (s.loadPayload pl).phase = s.phase := rfl
@[simp] theorem State.loadPayload_req (pl : List Byte) : (s.loadPayload pl).req = s.req := rfl
@[simp] theorem State.loadPayload_hdr (pl : List Byte) : (s.loadPayload pl).hdr = s.hdr := rfl
@[simp] theorem State.loadPayload_declLen (pl : List Byte) :
    (s.loadPayload pl).declLen = s.declLen := rfl
@[simp] theorem State.loadPayload_rxCk (pl : List Byte) : (s.loadPayload pl).rxCk = s.rxCk := rfl
@[simp] theorem State.loadPayload_calcCk (pl : List Byte) :
    (s.loadPayload pl).calcCk = s.calcCk := rfl
@[simp] theorem State.loadPayload_txbuf (pl : List Byte) : (s.loadPayload pl).txbuf = s.txbuf := rfl
@[simp] theorem State.loadPayload_rxpay (pl : List Byte) :
    (s.loadPayload pl).rxpay = s.rxpay.writeBytes 0 pl := rfl
@[simp] theorem State.loadPayload_rxStream (pl : List Byte) :
    (s.loadPayload pl).rxStream = s.rxStream := rfl
@[simp] theorem State.loadPayload_answers (pl : List Byte) :
    (s.loadPayload pl).answers = s.answers := rfl
@[simp] theorem State.loadPayload_link (pl : List Byte) : (s.loadPayload pl).link = s.link := rfl
@[simp] theorem State.loadPayload_hostIn (pl : List Byte) :
    (s.loadPayload pl).hostIn = s.hostIn := rfl
@[simp] theorem State.loadPayload_hostOut (pl : List Byte) :
    (s.loadPayload pl).hostOut = s.hostOut := rfl
@[simp] theorem State.loadPayload_platform (pl : List Byte) :
    (s.loadPayload pl).platform = s.platform := rfl

/-! ## loadChecksums -/

@[simp] theorem State.loadChecksums_mode (r c : Byte) : (s.loadChecksums r c).mode = s.mode := rfl
@[simp] theorem State.loadChecksums_devAddr (r c : Byte) :
    (s.loadChecksums r c).devAddr = s.devAddr := rfl
@[simp] theorem State.loadChecksums_phase (r c : Byte) :
    (s.loadChecksums r c).phase = s.phase := rfl
@[simp] theorem State.loadChecksums_req (r c : Byte) : (s.loadChecksums r c).req = s.req := rfl
@[simp] theorem State.loadChecksums_hdr (r c : Byte) : (s.loadChecksums r c).hdr = s.hdr := rfl
@[simp] theorem State.loadChecksums_declLen (r c : Byte) :
    (s.loadChecksums r c).declLen = s.declLen := rfl
@[simp] theorem State.loadChecksums_rxCk (r c : Byte) : (s.loadChecksums r c).rxCk = r := rfl
@[simp] theorem State.loadChecksums_calcCk (r c : Byte) : (s.loadChecksums r c).calcCk = c := rfl
@[simp] theorem State.loadChecksums_txbuf (r c : Byte) :
    (s.loadChecksums r c).txbuf = s.txbuf := rfl
@[simp] theorem State.loadChecksums_rxpay (r c : Byte) :
    (s.loadChecksums r c).rxpay = s.rxpay := rfl
@[simp] theorem State.loadChecksums_rxStream (r c : Byte) :
    (s.loadChecksums r c).rxStream = s.rxStream := rfl
@[simp] theorem State.loadChecksums_answers (r c : Byte) :
    (s.loadChecksums r c).answers = s.answers := rfl
@[simp] theorem State.loadChecksums_link (r c : Byte) : (s.loadChecksums r c).link = s.link := rfl
@[simp] theorem State.loadChecksums_hostIn (r c : Byte) :
    (s.loadChecksums r c).hostIn = s.hostIn := rfl
@[simp] theorem State.loadChecksums_hostOut (r c : Byte) :
    (s.loadChecksums r c).hostOut = s.hostOut := rfl
@[simp] theorem State.loadChecksums_platform (r c : Byte) :
    (s.loadChecksums r c).platform = s.platform := rfl

/-! ## modeTransition -/

@[simp] theorem State.modeTransition_mode (c : Byte) :
    (s.modeTransition c).mode = if c = cmdGetDistance then .streaming else if c = cmdStop then .idle else s.mode := rfl
@[simp] theorem State.modeTransition_devAddr (c : Byte) :
    (s.modeTransition c).devAddr = s.devAddr := rfl
@[simp] theorem State.modeTransition_phase (c : Byte) : (s.modeTransition c).phase = s.phase := rfl
@[simp] theorem State.modeTransition_req (c : Byte) : (s.modeTransition c).req = s.req := rfl
@[simp] theorem State.modeTransition_hdr (c : Byte) : (s.modeTransition c).hdr = s.hdr := rfl
@[simp] theorem State.modeTransition_declLen (c : Byte) :
    (s.modeTransition c).declLen = s.declLen := rfl
@[simp] theorem State.modeTransition_rxCk (c : Byte) : (s.modeTransition c).rxCk = s.rxCk := rfl
@[simp] theorem State.modeTransition_calcCk (c : Byte) :
    (s.modeTransition c).calcCk = s.calcCk := rfl
@[simp] theorem State.modeTransition_txbuf (c : Byte) : (s.modeTransition c).txbuf = s.txbuf := rfl
@[simp] theorem State.modeTransition_rxpay (c : Byte) : (s.modeTransition c).rxpay = s.rxpay := rfl
@[simp] theorem State.modeTransition_rxStream (c : Byte) :
    (s.modeTransition c).rxStream = s.rxStream := rfl
@[simp] theorem State.modeTransition_answers (c : Byte) :
    (s.modeTransition c).answers = s.answers := rfl
@[simp] theorem State.modeTransition_link (c : Byte) : (s.modeTransition c).link = s.link := rfl
@[simp] theorem State.modeTransition_hostIn (c : Byte) :
    (s.modeTransition c).hostIn = s.hostIn := rfl
@[simp] theorem State.modeTransition_hostOut (c : Byte) :
    (s.modeTransition c).hostOut = s.hostOut := rfl
@[simp] theorem State.modeTransition_platform (c : Byte) :
    (s.modeTransition c).platform = s.platform := rfl

/-! ## respond -/

@[simp] theorem State.respond_mode (r : Response) : (s.respond r).mode = s.mode := rfl
@[simp] theorem State.respond_devAddr (r : Response) : (s.respond r).devAddr = s.devAddr := rfl
@[simp] theorem State.respond_phase (r : Response) : (s.respond r).phase = .ready := rfl
@[simp] theorem State.respond_req (r : Response) : (s.respond r).req = s.req := rfl
@[simp] theorem State.respond_hdr (r : Response) : (s.respond r).hdr = s.hdr := rfl
@[simp] theorem State.respond_declLen (r : Response) : (s.respond r).declLen = s.declLen := rfl
@[simp] theorem State.respond_rxCk (r : Response) : (s.respond r).rxCk = s.rxCk := rfl
@[simp] theorem State.respond_calcCk (r : Response) : (s.respond r).calcCk = s.calcCk := rfl
@[simp] theorem State.respond_txbuf (r : Response) : (s.respond r).txbuf = s.txbuf := rfl
@[simp] theorem State.respond_rxpay (r : Response) : (s.respond r).rxpay = s.rxpay := rfl
@[simp] theorem State.respond_rxStream (r : Response) : (s.respond r).rxStream = s.rxStream := rfl
@[simp] theorem State.respond_answers (r : Response) : (s.respond r).answers = s.answers := rfl
@[simp] theorem State.respond_link (r : Response) : (s.respond r).link = s.link := rfl
@[simp] theorem State.respond_hostIn (r : Response) : (s.respond r).hostIn = s.hostIn := rfl
@[simp] theorem State.respond_hostOut (r : Response) :
    (s.respond r).hostOut = s.hostOut ++ [r] := rfl
@[simp] theorem State.respond_platform (r : Response) : (s.respond r).platform = s.platform := rfl

/-! ## resetRegisters -/

@[simp] theorem State.resetRegisters_mode : s.resetRegisters.mode = .idle := rfl
@[simp] theorem State.resetRegisters_devAddr : s.resetRegisters.devAddr = 0x01 := rfl
@[simp] theorem State.resetRegisters_phase : s.resetRegisters.phase = .ready := rfl
@[simp] theorem State.resetRegisters_req : s.resetRegisters.req = ⟨0, 0, 0, 0, 0, 0, []⟩ := rfl
@[simp] theorem State.resetRegisters_hdr :
    s.resetRegisters.hdr = ⟨0, 0, 0, 0, 0, 0, 0, 0, 0, 0⟩ := rfl
@[simp] theorem State.resetRegisters_declLen : s.resetRegisters.declLen = 0 := rfl
@[simp] theorem State.resetRegisters_rxCk : s.resetRegisters.rxCk = 0 := rfl
@[simp] theorem State.resetRegisters_calcCk : s.resetRegisters.calcCk = 0 := rfl
@[simp] theorem State.resetRegisters_txbuf : s.resetRegisters.txbuf = [] := rfl
@[simp] theorem State.resetRegisters_rxpay : s.resetRegisters.rxpay = [] := rfl
@[simp] theorem State.resetRegisters_rxStream : s.resetRegisters.rxStream = s.rxStream := rfl
@[simp] theorem State.resetRegisters_answers : s.resetRegisters.answers = s.answers := rfl
@[simp] theorem State.resetRegisters_link : s.resetRegisters.link = s.link := rfl
@[simp] theorem State.resetRegisters_hostIn : s.resetRegisters.hostIn = s.hostIn := rfl
@[simp] theorem State.resetRegisters_hostOut : s.resetRegisters.hostOut = s.hostOut := rfl
@[simp] theorem State.resetRegisters_platform : s.resetRegisters.platform = s.platform := rfl

/-! ## written -/

@[simp] theorem State.written_mode (p : Packet) (as : List Answer) :
    (s.written p as).mode = if p.cmd = 0x02 then .streaming else if p.cmd = 0x0F then .idle else s.mode := rfl
@[simp] theorem State.written_devAddr (p : Packet) (as : List Answer) :
    (s.written p as).devAddr = s.devAddr := rfl
@[simp] theorem State.written_phase (p : Packet) (as : List Answer) :
    (s.written p as).phase = s.phase := rfl
@[simp] theorem State.written_req (p : Packet) (as : List Answer) :
    (s.written p as).req = s.req := rfl
@[simp] theorem State.written_hdr (p : Packet) (as : List Answer) :
    (s.written p as).hdr = s.hdr := rfl
@[simp] theorem State.written_declLen (p : Packet) (as : List Answer) :
    (s.written p as).declLen = s.declLen := rfl
@[simp] theorem State.written_rxCk (p : Packet) (as : List Answer) :
    (s.written p as).rxCk = s.rxCk := rfl
@[simp] theorem State.written_calcCk (p : Packet) (as : List Answer) :
    (s.written p as).calcCk = s.calcCk := rfl
@[simp] theorem State.written_txbuf (p : Packet) (as : List Answer) :
    (s.written p as).txbuf = s.txbuf := rfl
@[simp] theorem State.written_rxpay (p : Packet) (as : List Answer) :
    (s.written p as).rxpay = s.rxpay := rfl
@[simp] theorem State.written_rxStream (p : Packet) (as : List Answer) :
    (s.written p as).rxStream = s.rxStream := rfl
@[simp] theorem State.written_answers (p : Packet) (as : List Answer) :
    (s.written p as).answers = as := rfl
@[simp] theorem State.written_link (p : Packet) (as : List Answer) :
    (s.written p as).link = s.link ++ encodePacket p := rfl
@[simp] theorem State.written_hostIn (p : Packet) (as : List Answer) :
    (s.written p as).hostIn = s.hostIn := rfl
@[simp] theorem State.written_hostOut (p : Packet) (as : List Answer) :
    (s.written p as).hostOut = s.hostOut := rfl
@[simp] theorem State.written_platform (p : Packet) (as : List Answer) :
    (s.written p as).platform = s.platform := rfl

/-! ## sent -/

@[simp] theorem State.sent_mode (p : Packet) (as : List Answer) :
    (s.sent p as).mode = if p.cmd = 0x02 then .streaming else if p.cmd = 0x0F then .idle else s.mode := rfl
@[simp] theorem State.sent_devAddr (p : Packet) (as : List Answer) :
    (s.sent p as).devAddr = s.devAddr := rfl
@[simp] theorem State.sent_phase (p : Packet) (as : List Answer) : (s.sent p as).phase = .tx := rfl
@[simp] theorem State.sent_req (p : Packet) (as : List Answer) : (s.sent p as).req = s.req := rfl
@[simp] theorem State.sent_hdr (p : Packet) (as : List Answer) : (s.sent p as).hdr = s.hdr := rfl
@[simp] theorem State.sent_declLen (p : Packet) (as : List Answer) :
    (s.sent p as).declLen = s.declLen := rfl
@[simp] theorem State.sent_rxCk (p : Packet) (as : List Answer) : (s.sent p as).rxCk = s.rxCk := rfl
@[simp] theorem State.sent_calcCk (p : Packet) (as : List Answer) :
    (s.sent p as).calcCk = s.calcCk := rfl
@[simp] theorem State.sent_txbuf (p : Packet) (as : List Answer) :
    (s.sent p as).txbuf = s.txbuf.writeBytes 0 (encodePacket p) := rfl
@[simp] theorem State.sent_rxpay (p : Packet) (as : List Answer) :
    (s.sent p as).rxpay = s.rxpay := rfl
@[simp] theorem State.sent_rxStream (p : Packet) (as : List Answer) :
    (s.sent p as).rxStream = s.rxStream := rfl
@[simp] theorem State.sent_answers (p : Packet) (as : List Answer) :
    (s.sent p as).answers = as := rfl
@[simp] theorem State.sent_link (p : Packet) (as : List Answer) :
    (s.sent p as).link = s.link ++ encodePacket p := rfl
@[simp] theorem State.sent_hostIn (p : Packet) (as : List Answer) :
    (s.sent p as).hostIn = s.hostIn := rfl
@[simp] theorem State.sent_hostOut (p : Packet) (as : List Answer) :
    (s.sent p as).hostOut = s.hostOut := rfl
@[simp] theorem State.sent_platform (p : Packet) (as : List Answer) :
    (s.sent p as).platform = s.platform := rfl

/-! ## received -/

@[simp] theorem State.received_mode (p : Packet) (rest : List Byte) (as : List Answer) :
    (s.received p rest as).mode = s.mode := rfl
@[simp] theorem State.received_devAddr (p : Packet) (rest : List Byte) (as : List Answer) :
    (s.received p rest as).devAddr = s.devAddr := rfl
@[simp] theorem State.received_phase (p : Packet) (rest : List Byte) (as : List Answer) :
    (s.received p rest as).phase = .interpret := rfl
@[simp] theorem State.received_req (p : Packet) (rest : List Byte) (as : List Answer) :
    (s.received p rest as).req = s.req := rfl
@[simp] theorem State.received_hdr (p : Packet) (rest : List Byte) (as : List Answer) :
    (s.received p rest as).hdr = ⟨0xAA, 0xAA, 0xAA, 0xAA, p.addr, p.cmd, lowByte p.off, highByte p.off, lowByte (BitVec.ofNat 16 p.payload.length), highByte (BitVec.ofNat 16 p.payload.length)⟩ := rfl
@[simp] theorem State.received_declLen (p : Packet) (rest : List Byte) (as : List Answer) :
    (s.received p rest as).declLen = BitVec.ofNat 16 p.payload.length := rfl
@[simp] theorem State.received_rxCk (p : Packet) (rest : List Byte) (as : List Answer) :
    (s.received p rest as).rxCk = checksum p.addr p.cmd p.off p.payload := rfl
@[simp] theorem State.received_calcCk (p : Packet) (rest : List Byte) (as : List Answer) :
    (s.received p rest as).calcCk = checksum p.addr p.cmd p.off p.payload := rfl
@[simp] theorem State.received_txbuf (p : Packet) (rest : List Byte) (as : List Answer) :
    (s.received p rest as).txbuf = s.txbuf := rfl
@[simp] theorem State.received_rxpay (p : Packet) (rest : List Byte) (as : List Answer) :
    (s.received p rest as).rxpay = s.rxpay.writeBytes 0 p.payload := rfl
@[simp] theorem State.received_rxStream (p : Packet) (rest : List Byte) (as : List Answer) :
    (s.received p rest as).rxStream = rest := rfl
@[simp] theorem State.received_answers (p : Packet) (rest : List Byte) (as : List Answer) :
    (s.received p rest as).answers = as := rfl
@[simp] theorem State.received_link (p : Packet) (rest : List Byte) (as : List Answer) :
    (s.received p rest as).link = s.link := rfl
@[simp] theorem State.received_hostIn (p : Packet) (rest : List Byte) (as : List Answer) :
    (s.received p rest as).hostIn = s.hostIn := rfl
@[simp] theorem State.received_hostOut (p : Packet) (rest : List Byte) (as : List Answer) :
    (s.received p rest as).hostOut = s.hostOut := rfl
@[simp] theorem State.received_platform (p : Packet) (rest : List Byte) (as : List Answer) :
    (s.received p rest as).platform = s.platform := rfl

/-! ## The two responses are `respond` -/

@[simp] theorem State.raiseError_eq (e : ErrorInfo) :
    s.raiseError e = s.respond (Response.error e) := rfl
@[simp] theorem State.respondOk_eq (r : Result) : s.respondOk r = s.respond (Response.ok r) := rfl

end Sys2Proof.Machine
end

