-- ==== Sys2Proof/Laws/Transport.lean ====
section
/-! SUPPORT. Everything a transaction and each procedure over it can do, said once. -/

namespace Sys2Proof.Machine

/-! ## Flows -/

/-- A property of the state a procedure leaves, however it ends. -/
def Flow.all {α : Type} (P : State → Prop) : Flow α → Prop
  | .run _ s => P s
  | .wait s => P s
  | .err _ s => P s
  | .stop _ => True

@[simp] theorem Flow.bind_run {α β : Type} (a : α) (s : State) (f : α → State → Flow β) :
    (Flow.run a s).bind f = f a s := rfl
@[simp] theorem Flow.bind_wait {α β : Type} (s : State) (f : α → State → Flow β) :
    (Flow.wait s).bind f = .wait s := rfl
@[simp] theorem Flow.bind_err {α β : Type} (e : ErrorInfo) (s : State) (f : α → State → Flow β) :
    (Flow.err e s).bind f = .err e s := rfl
@[simp] theorem Flow.bind_stop {α β : Type} (g : Fault) (f : α → State → Flow β) :
    (Flow.stop g).bind f = .stop g := rfl

@[simp] theorem Flow.finish_run (r : Result) (s : State) :
    (Flow.run r s).finish = .next (s.respond (Response.ok r)) := rfl
@[simp] theorem Flow.finish_wait (s : State) : (Flow.wait s).finish = .next s := rfl
@[simp] theorem Flow.finish_err (e : ErrorInfo) (s : State) :
    (Flow.err e s).finish = .next (s.respond (Response.error e)) := rfl
@[simp] theorem Flow.finish_stop (g : Fault) : (Flow.stop g).finish = .fault g := rfl

theorem Flow.bind_assoc {α β γ : Type} (x : Flow α) (f : α → State → Flow β)
    (g : β → State → Flow γ) :
    (x.bind f).bind g = x.bind fun a s => (f a s).bind g := by
  cases x <;> rfl

theorem Flow.all_bind {α β : Type} {P Q : State → Prop} (x : Flow α) (f : α → State → Flow β)
    (hx : x.all P) (hPQ : ∀ s, P s → Q s) (hf : ∀ a s, P s → (f a s).all Q) : (x.bind f).all Q := by
  cases x with
  | run a s => exact hf a s hx
  | wait s => exact hPQ s hx
  | err e s => exact hPQ s hx
  | stop g => trivial

theorem Flow.all_imp {α : Type} {P Q : State → Prop} (x : Flow α) (hx : x.all P)
    (h : ∀ s, P s → Q s) : x.all Q := by
  cases x <;> first | exact h _ hx | trivial

/-- The three ways an operation's step ends in a next state. -/
theorem Flow.finish_next {x : Flow Result} {t : State} (h : x.finish = .next t) :
    (∃ r s, x = .run r s ∧ t = s.respond (Response.ok r))
      ∨ (x = .wait t)
      ∨ (∃ e s, x = .err e s ∧ t = s.respond (Response.error e)) := by
  cases x with
  | run r s => exact .inl ⟨r, s, rfl, by simpa using h.symm⟩
  | wait s => exact .inr (.inl (by simpa using h))
  | err e s => exact .inr (.inr ⟨e, s, rfl, by simpa using h.symm⟩)
  | stop g => simp at h

/-- A property a response keeps holds of the next state if it holds of the flow. -/
theorem Flow.all_finish {x : Flow Result} {P : State → Prop} {t : State} (hx : x.all P)
    (hr : ∀ s r, P s → P (s.respond r)) (h : x.finish = .next t) : P t := by
  rcases Flow.finish_next h with ⟨r, s, rfl, rfl⟩ | rfl | ⟨e, s, rfl, rfl⟩
  · exact hr s _ hx
  · exact hx
  · exact hr s _ hx

/-! ## Transactions -/

/-- Everything `TxWrite` can do (20_memory R47, R48). -/
theorem txWrite_cases (f : List Byte) (s : State) :
    (∃ as, s.answers = .complete :: as
      ∧ txWrite f s = .run () { s with answers := as, link := s.link ++ f })
    ∨ (∃ k as, s.answers = .fail k :: as
      ∧ txWrite f s = .err (.transport .tx) { s with answers := as, link := s.link ++ f.take k })
    ∨ (∃ as, s.answers = .silent :: as ∧ txWrite f s = .wait { s with answers := as })
    ∨ (s.answers = [] ∧ txWrite f s = .wait s) := by
  unfold txWrite
  split <;> simp_all

/-- Everything `RxRead` can do (20_memory R46, R48). -/
theorem rxRead_cases (w : Transaction) (n : Nat) (s : State) :
    (∃ as, s.answers = .complete :: as ∧ n ≤ s.rxStream.length
      ∧ rxRead w n s
        = .run (s.rxStream.take n) { s with answers := as, rxStream := s.rxStream.drop n })
    ∨ (∃ as, s.answers = .complete :: as ∧ s.rxStream.length < n ∧ rxRead w n s = .wait s)
    ∨ (∃ k as, s.answers = .fail k :: as
      ∧ rxRead w n s
        = .err (.transport w) { s with answers := as, rxStream := s.rxStream.drop (min k n) })
    ∨ (∃ as, s.answers = .silent :: as ∧ rxRead w n s = .wait { s with answers := as })
    ∨ (s.answers = [] ∧ rxRead w n s = .wait s) := by
  unfold rxRead
  split
  · rename_i as h
    by_cases hn : n ≤ s.rxStream.length
    · exact .inl ⟨as, h, hn, if_pos hn⟩
    · exact .inr (.inl ⟨as, h, Nat.lt_of_not_le hn, if_neg hn⟩)
  all_goals simp_all

/-! ## SEND -/

/-- Everything the outstanding TxWrite of SEND can do (42_session_ops R152, R154). -/
theorem sendWrite_cases (p : Packet) (s : State) :
    (∃ as, s.answers = .complete :: as ∧ sendWrite p s = .run () (s.written p as))
    ∨ (∃ k as, s.answers = .fail k :: as
      ∧ sendWrite p s = .err (.transport .tx)
          { s with answers := as, link := s.link ++ (encodePacket p).take k })
    ∨ (∃ as, s.answers = .silent :: as ∧ sendWrite p s = .wait { s with answers := as })
    ∨ (s.answers = [] ∧ sendWrite p s = .wait s) := by
  unfold sendWrite
  rcases txWrite_cases (encodePacket p) s with
    ⟨as, ha, h⟩ | ⟨k, as, ha, h⟩ | ⟨as, ha, h⟩ | ⟨ha, h⟩ <;> rw [h]
  · exact .inl ⟨as, ha, rfl⟩
  · exact .inr (.inl ⟨k, as, ha, rfl⟩)
  · exact .inr (.inr (.inl ⟨as, ha, rfl⟩))
  · exact .inr (.inr (.inr ⟨ha, rfl⟩))

/-- SEND of a frame that fits: the issue of its TxWrite, or, in TX, the answer to it (42_session_ops
R154). -/
theorem send_eq (p : Packet) (s : State) (hp : p.payload.length ≤ maxPayload) :
    send p s = if s.phase = .tx then sendWrite p s else .wait (s.loadTx (encodePacket p)) := by
  unfold send
  rw [if_pos]
  rw [encodePacket_length]
  unfold maxPayload at hp
  unfold txbufSize
  omega

/-- A frame longer than TXBUF stops the model (20_memory R41). -/
theorem send_stop (p : Packet) (s : State) (hp : maxPayload < p.payload.length) :
    send p s = .stop .outsideTxbuf := by
  unfold send
  rw [if_neg]
  rw [encodePacket_length]
  unfold maxPayload at hp
  unfold txbufSize
  omega

/-! ## RECV -/

/-- Everything the answer to the header read can do (40_frame_codec R104, R105). -/
theorem recvHeader_cases (s : State) :
    (∃ as, s.answers = .complete :: as ∧ 10 ≤ s.rxStream.length
      ∧ (Header.ofBytes (s.rxStream.take 10)).marker = startMarker
      ∧ recvHeader s = .wait
          { s with
            phase := if (Header.ofBytes (s.rxStream.take 10)).declLen = 0 then .rxChecksum
              else .rxPayload
            answers := as, rxStream := s.rxStream.drop 10
            hdr := Header.ofBytes (s.rxStream.take 10)
            declLen := (Header.ofBytes (s.rxStream.take 10)).declLen })
    ∨ (∃ as, s.answers = .complete :: as ∧ 10 ≤ s.rxStream.length
      ∧ (Header.ofBytes (s.rxStream.take 10)).marker ≠ startMarker
      ∧ recvHeader s = .err
          (.framing (Header.ofBytes (s.rxStream.take 10)).m0 (Header.ofBytes (s.rxStream.take 10)).m1
            (Header.ofBytes (s.rxStream.take 10)).m2 (Header.ofBytes (s.rxStream.take 10)).m3)
          { s with
            answers := as, rxStream := s.rxStream.drop 10
            hdr := Header.ofBytes (s.rxStream.take 10) })
    ∨ (∃ as, s.answers = .complete :: as ∧ s.rxStream.length < 10 ∧ recvHeader s = .wait s)
    ∨ (∃ k as, s.answers = .fail k :: as
      ∧ recvHeader s = .err (.transport .rxHeader)
          { s with answers := as, rxStream := s.rxStream.drop (min k 10) })
    ∨ (∃ as, s.answers = .silent :: as ∧ recvHeader s = .wait { s with answers := as })
    ∨ (s.answers = [] ∧ recvHeader s = .wait s) := by
  unfold recvHeader
  rcases rxRead_cases .rxHeader 10 s with
    ⟨as, ha, hn, h⟩ | ⟨as, ha, hn, h⟩ | ⟨k, as, ha, h⟩ | ⟨as, ha, h⟩ | ⟨ha, h⟩ <;> rw [h]
  · rw [Flow.bind_run]
    by_cases hm : (Header.ofBytes (s.rxStream.take 10)).marker = startMarker
    · exact .inl ⟨as, ha, hn, hm, if_pos hm⟩
    · exact .inr (.inl ⟨as, ha, hn, hm, if_neg hm⟩)
  · exact .inr (.inr (.inl ⟨as, ha, hn, rfl⟩))
  · exact .inr (.inr (.inr (.inl ⟨k, as, ha, rfl⟩)))
  · exact .inr (.inr (.inr (.inr (.inl ⟨as, ha, rfl⟩))))
  · exact .inr (.inr (.inr (.inr (.inr ⟨ha, rfl⟩))))

/-- Everything the answer to the payload read can do (40_frame_codec R104). -/
theorem recvPayload_cases (s : State) :
    (∃ as, s.answers = .complete :: as ∧ s.declLen.toNat ≤ s.rxStream.length
      ∧ recvPayload s = .wait
          { s with
            phase := .rxChecksum, answers := as, rxStream := s.rxStream.drop s.declLen.toNat
            rxpay := s.rxpay.writeBytes 0 (s.rxStream.take s.declLen.toNat) })
    ∨ (∃ as, s.answers = .complete :: as ∧ s.rxStream.length < s.declLen.toNat
      ∧ recvPayload s = .wait s)
    ∨ (∃ k as, s.answers = .fail k :: as
      ∧ recvPayload s = .err (.transport .rxPayload)
          { s with answers := as, rxStream := s.rxStream.drop (min k s.declLen.toNat) })
    ∨ (∃ as, s.answers = .silent :: as ∧ recvPayload s = .wait { s with answers := as })
    ∨ (s.answers = [] ∧ recvPayload s = .wait s) := by
  unfold recvPayload
  rcases rxRead_cases .rxPayload s.declLen.toNat s with
    ⟨as, ha, hn, h⟩ | ⟨as, ha, hn, h⟩ | ⟨k, as, ha, h⟩ | ⟨as, ha, h⟩ | ⟨ha, h⟩ <;> rw [h]
  · exact .inl ⟨as, ha, hn, rfl⟩
  · exact .inr (.inl ⟨as, ha, hn, rfl⟩)
  · exact .inr (.inr (.inl ⟨k, as, ha, rfl⟩))
  · exact .inr (.inr (.inr (.inl ⟨as, ha, rfl⟩)))
  · exact .inr (.inr (.inr (.inr ⟨ha, rfl⟩)))

/-- The checksum the block computes over what HDR and RXPAY hold (40_frame_codec R104). -/
def State.computedChecksum (s : State) : Byte :=
  checksum s.hdr.addr s.hdr.cmd s.hdr.off s.rxPayloadBytes

/-- Everything the answer to the checksum read can do (40_frame_codec R104, R106). -/
theorem recvChecksum_cases (s : State) :
    (∃ as ck rest, s.answers = .complete :: as ∧ s.rxStream = ck :: rest ∧ ck = s.computedChecksum
      ∧ recvChecksum s = .run s.packet
          { s with
            phase := .interpret, answers := as, rxStream := rest
            rxCk := ck, calcCk := s.computedChecksum })
    ∨ (∃ as ck rest, s.answers = .complete :: as ∧ s.rxStream = ck :: rest ∧ ck ≠ s.computedChecksum
      ∧ recvChecksum s = .err (.checksum ck s.computedChecksum)
          { s with
            answers := as, rxStream := rest, rxCk := ck, calcCk := s.computedChecksum })
    ∨ (∃ as, s.answers = .complete :: as ∧ s.rxStream = [] ∧ recvChecksum s = .wait s)
    ∨ (∃ k as, s.answers = .fail k :: as
      ∧ recvChecksum s = .err (.transport .rxChecksum)
          { s with answers := as, rxStream := s.rxStream.drop (min k 1) })
    ∨ (∃ as, s.answers = .silent :: as ∧ recvChecksum s = .wait { s with answers := as })
    ∨ (s.answers = [] ∧ recvChecksum s = .wait s) := by
  unfold recvChecksum
  rcases rxRead_cases .rxChecksum 1 s with
    ⟨as, ha, hn, h⟩ | ⟨as, ha, hn, h⟩ | ⟨k, as, ha, h⟩ | ⟨as, ha, h⟩ | ⟨ha, h⟩ <;> rw [h]
  · rw [Flow.bind_run]
    obtain ⟨ck, rest, hs⟩ : ∃ ck rest, s.rxStream = ck :: rest :=
      List.exists_cons_of_length_pos hn
    by_cases hc : ck = s.computedChecksum
    · refine .inl ⟨as, ck, rest, ha, hs, hc, ?_⟩
      simp only [hs]
      exact if_pos hc
    · refine .inr (.inl ⟨as, ck, rest, ha, hs, hc, ?_⟩)
      simp only [hs]
      exact if_neg hc
  · exact .inr (.inr (.inl ⟨as, ha, List.eq_nil_of_length_eq_zero (by omega), rfl⟩))
  · exact .inr (.inr (.inr (.inl ⟨k, as, ha, rfl⟩)))
  · exact .inr (.inr (.inr (.inr (.inl ⟨as, ha, rfl⟩))))
  · exact .inr (.inr (.inr (.inr (.inr ⟨ha, rfl⟩))))

/-- RECV is the answer to the read PHASE names, or the issue of the header read. -/
theorem recv_eq (s : State) :
    recv s =
      if s.phase = .rxHeader then recvHeader s
      else if s.phase = .rxPayload then recvPayload s
      else if s.phase = .rxChecksum then recvChecksum s
      else if s.phase = .interpret then .run s.packet s
      else .wait (s.setPhase .rxHeader) := by
  unfold recv
  cases s.phase <;> rfl

/-! ## Several steps -/

@[simp] theorem repeatStep_zero (f : State → Out) (s : State) : repeatStep f 0 s = .next s := rfl

/-- One step that has a next state, and the rest from there. -/
theorem repeatStep_succ {f : State → Out} {s t : State} (h : f s = .next t) (n : Nat) :
    repeatStep f (n + 1) s = repeatStep f n t := by
  rw [repeatStep, h]

@[simp] theorem recvTimes_zero (s : State) : recvTimes 0 s = .wait s := rfl

/-- One transaction of a Decode, and the rest where it waits. -/
theorem recvTimes_succ (n : Nat) (s : State) :
    recvTimes (n + 1) s =
      match recv s with
      | .run p t => .run p t
      | .wait t => recvTimes n t
      | .err e t => .err e t
      | .stop g => .stop g := rfl

end Sys2Proof.Machine
end

