-- ==== Sys2Proof/Laws/Session.lean ====
section
/-! SUPPORT. What the checks, SEND, RECV and the interpretation of a response leave alone, and the shapes
they leave it in, said once. -/

namespace Sys2Proof.Machine

/-! ## Checks -/

/-- The mode check passes, or it is the error and the state as it was (42_session_ops R151). -/
theorem requireMode_cases (m : Mode) (op : Byte) (s : State) :
    (s.mode = m ∧ requireMode m op s = .run () s)
    ∨ (s.mode ≠ m ∧ requireMode m op s = .err (.stateError op s.mode) s) := by
  unfold requireMode
  by_cases h : s.mode = m
  · exact .inl ⟨h, if_pos h⟩
  · exact .inr ⟨h, if_neg h⟩

/-- Interpreting a response gives a result or an error, and in both the state as it was (42_session_ops
R156; 43_payload_decoders R207). -/
theorem interpretWith_cases (P : Params) (c : Byte) (a : Option Byte)
    (d : Packet → Except ErrorInfo Result) (p : Packet) (s : State) :
    (∃ r, routingError P p c a = none ∧ d p = .ok r ∧ interpretWith P c a d p s = .run r s)
    ∨ (∃ e, (routingError P p c a = some e ∨ (routingError P p c a = none ∧ d p = .error e))
        ∧ interpretWith P c a d p s = .err e s) := by
  unfold interpretWith
  cases hr : routingError P p c a with
  | some e => exact .inr ⟨e, .inl rfl, rfl⟩
  | none =>
    cases hd : d p with
    | ok r => exact .inl ⟨r, rfl, rfl, by simp⟩
    | error e => exact .inr ⟨e, .inr ⟨rfl, rfl⟩, by simp⟩

/-! ## SEND -/

/-- What one step of SEND leaves alone, however it ends: before TX it writes TXBUF and issues the
TxWrite, in TX it takes the answer to it (42_session_ops R154). -/
def State.sendKept (p : Packet) (s t : State) : Prop :=
  t.phase = .tx ∧ t.devAddr = s.devAddr ∧ t.req = s.req ∧ t.hdr = s.hdr ∧ t.declLen = s.declLen
  ∧ t.rxCk = s.rxCk ∧ t.calcCk = s.calcCk ∧ t.rxpay = s.rxpay ∧ t.rxStream = s.rxStream
  ∧ t.hostIn = s.hostIn ∧ t.hostOut = s.hostOut ∧ t.platform = s.platform
  ∧ (s.phase ≠ .tx → t.txbuf = s.txbuf.writeBytes 0 (encodePacket p) ∧ t.link = s.link
      ∧ t.answers = s.answers ∧ t.mode = s.mode)
  ∧ (s.phase = .tx → t.txbuf = s.txbuf ∧ (∃ bs, t.link = s.link ++ bs)
      ∧ (∃ k ≤ 1, t.answers = s.answers.drop k)
      ∧ (t.mode = s.mode
          ∨ ((p.cmd = 0x02 ∧ t.mode = .streaming ∨ p.cmd = 0x0F ∧ t.mode = .idle)
            ∧ t.link = s.link ++ encodePacket p)))

theorem sendWrite_kept (p : Packet) (s : State) (hs : s.phase = .tx) :
    (sendWrite p s).all (s.sendKept p) := by
  rcases sendWrite_cases p s with ⟨as, ha, h⟩ | ⟨k, as, ha, h⟩ | ⟨as, ha, h⟩ | ⟨ha, h⟩ <;> rw [h] <;>
    refine ⟨hs, rfl, rfl, rfl, rfl, rfl, rfl, rfl, rfl, rfl, rfl, rfl, fun hc => absurd hs hc,
      fun _ => ⟨rfl, ?_, ?_, ?_⟩⟩
  · exact ⟨_, rfl⟩
  · exact ⟨1, le_rfl, by rw [ha]; rfl⟩
  · by_cases h2 : p.cmd = 0x02
    · exact .inr ⟨.inl ⟨h2, by simp [h2]⟩, rfl⟩
    · by_cases hf : p.cmd = 0x0F
      · exact .inr ⟨.inr ⟨hf, by simp [hf]⟩, rfl⟩
      · exact .inl ((if_neg h2).trans (if_neg hf))
  all_goals first
    | exact .inl rfl
    | exact ⟨[], (List.append_nil _).symm⟩
    | exact ⟨_, rfl⟩
    | exact ⟨1, le_rfl, by rw [ha]; rfl⟩

/-- One step of SEND leaves alone what `sendKept` says. -/
theorem send_kept (p : Packet) (s : State) : (send p s).all (s.sendKept p) := by
  by_cases hp : p.payload.length ≤ maxPayload
  · rw [send_eq p s hp]
    split
    · exact sendWrite_kept p s ‹_›
    · rename_i hs
      exact ⟨rfl, rfl, rfl, rfl, rfl, rfl, rfl, rfl, rfl, rfl, rfl, rfl,
        fun _ => ⟨rfl, rfl, rfl, rfl⟩, fun hc => absurd hc hs⟩
  · rw [send_stop p s (Nat.lt_of_not_le hp)]
    trivial

/-! ## RECV -/

/-- What one step of RECV leaves alone, however it ends: each register and RXPAY change only in the
answer to the read that writes them (42_session_ops R155; 40_frame_codec R104; 20_memory R42). -/
def State.recvKept (s t : State) : Prop :=
  t.mode = s.mode ∧ t.devAddr = s.devAddr ∧ t.req = s.req ∧ t.hostIn = s.hostIn
  ∧ t.hostOut = s.hostOut ∧ t.platform = s.platform ∧ t.txbuf = s.txbuf ∧ t.link = s.link
  ∧ (∃ k, t.rxStream = s.rxStream.drop k) ∧ (∃ k ≤ 1, t.answers = s.answers.drop k)
  ∧ (∀ a, s.declLen.toNat ≤ a → t.rxpay.read a = s.rxpay.read a)
  ∧ (s.phase ≠ .rxHeader → t.hdr = s.hdr ∧ t.declLen = s.declLen)
  ∧ (s.phase ≠ .rxPayload ∨ t.phase ≠ .rxChecksum → t.rxpay = s.rxpay)
  ∧ (s.phase ≠ .rxChecksum → t.rxCk = s.rxCk ∧ t.calcCk = s.calcCk)

theorem recvHeader_kept (s : State) (hs : s.phase = .rxHeader) :
    (recvHeader s).all s.recvKept := by
  rcases recvHeader_cases s with
    ⟨as, ha, _, _, h⟩ | ⟨as, ha, _, _, h⟩ | ⟨as, ha, _, h⟩ | ⟨k, as, ha, h⟩ | ⟨as, ha, h⟩ | ⟨ha, h⟩ <;>
    rw [h] <;>
    refine ⟨rfl, rfl, rfl, rfl, rfl, rfl, rfl, rfl, ?_, ?_, fun _ _ => rfl, fun hc => absurd hs hc,
      fun _ => rfl, fun _ => ⟨rfl, rfl⟩⟩
  all_goals first
    | exact ⟨0, rfl⟩
    | exact ⟨10, rfl⟩
    | exact ⟨_, rfl⟩
    | exact ⟨1, le_rfl, by rw [ha]; rfl⟩
    | exact ⟨0, Nat.zero_le _, rfl⟩

theorem recvPayload_kept (s : State) (hs : s.phase = .rxPayload) :
    (recvPayload s).all s.recvKept := by
  rcases recvPayload_cases s with
    ⟨as, ha, hn, h⟩ | ⟨as, ha, _, h⟩ | ⟨k, as, ha, h⟩ | ⟨as, ha, h⟩ | ⟨ha, h⟩ <;> rw [h] <;>
    refine ⟨rfl, rfl, rfl, rfl, rfl, rfl, rfl, rfl, ?_, ?_, fun a h' => ?_, fun _ => ⟨rfl, rfl⟩,
      fun hc => ?_, fun _ => ⟨rfl, rfl⟩⟩
  all_goals first
    | rfl
    | exact ⟨0, rfl⟩
    | exact ⟨_, rfl⟩
    | exact ⟨1, le_rfl, by rw [ha]; rfl⟩
    | exact ⟨0, Nat.zero_le _, rfl⟩
    | skip
  · exact Memory.read_writeBytes_outside _ _ _ (le_trans (List.length_take_le _ _) h')
  · exact absurd hs (hc.resolve_right fun hn => hn rfl)

theorem recvChecksum_kept (s : State) (hs : s.phase = .rxChecksum) :
    (recvChecksum s).all s.recvKept := by
  rcases recvChecksum_cases s with
    ⟨as, ck, rest, ha, hr, _, h⟩ | ⟨as, ck, rest, ha, hr, _, h⟩ | ⟨as, ha, _, h⟩ | ⟨k, as, ha, h⟩
      | ⟨as, ha, h⟩ | ⟨ha, h⟩ <;> rw [h] <;>
    refine ⟨rfl, rfl, rfl, rfl, rfl, rfl, rfl, rfl, ?_, ?_, fun _ _ => rfl, fun _ => ⟨rfl, rfl⟩,
      fun _ => rfl, fun hc => absurd hs hc⟩
  all_goals first
    | exact ⟨0, rfl⟩
    | exact ⟨1, by rw [hr]; rfl⟩
    | exact ⟨_, rfl⟩
    | exact ⟨1, le_rfl, by rw [ha]; rfl⟩
    | exact ⟨0, Nat.zero_le _, rfl⟩

/-- One step of RECV leaves alone what `recvKept` says. -/
theorem recv_kept (s : State) : (recv s).all s.recvKept := by
  rw [recv_eq]
  split
  · exact recvHeader_kept s ‹_›
  split
  · exact recvPayload_kept s ‹_›
  split
  · exact recvChecksum_kept s ‹_›
  split
  all_goals exact ⟨rfl, rfl, rfl, rfl, rfl, rfl, rfl, rfl, ⟨0, rfl⟩, ⟨0, Nat.zero_le _, rfl⟩,
    fun _ _ => rfl, fun _ => ⟨rfl, rfl⟩, fun _ => rfl, fun _ => ⟨rfl, rfl⟩⟩

/-! ## Interpretation -/

theorem interpretWith_kept (P : Params) (c : Byte) (a : Option Byte)
    (d : Packet → Except ErrorInfo Result) (p : Packet) (s : State) :
    (interpretWith P c a d p s).all fun t => t = s := by
  rcases interpretWith_cases P c a d p s with ⟨r, _, _, h⟩ | ⟨e, _, h⟩ <;> rw [h] <;> rfl

end Sys2Proof.Machine
end

