-- ==== Sys2Proof/Tests/Slice0.lean ====
section
/-! SUPPORT. The package's own tests: every expected value is one of 95_test_vectors.md or a sum taken by
hand from a rule of spec/. The witnesses at the end meet the hypotheses of the statements. -/

namespace Sys2Proof.Tests

open Sys2Proof Sys2Proof.Machine

/-! ## Helpers -/

/-- Idle, DEV_ADDR 0x01, with a stream and the transport's answers. -/
def idle (rx : List Byte) (as : List Answer) : State :=
  { State.reset with rxStream := rx, answers := as }

/-- The same in Streaming. -/
def streaming (rx : List Byte) (as : List Answer) : State := { idle rx as with mode := .streaming }

/-- The same state with a TxWrite outstanding. -/
def writing (s : State) : State := { s with phase := .tx }

/-- A meaning over its steps, as long as it answers a next state. -/
def run (n : Nat) (i : Instr) (s : State) : Out := repeatStep (exec i) n s

/-- The same of an operation with parameters of its own. -/
def runFlow (n : Nat) (f : State → Flow Result) (s : State) : Out :=
  repeatStep (fun u => (f u).finish) n s

/-- The responses returned after an outcome. -/
def responses : Out → List Response
  | .next s => s.hostOut
  | .fault _ => []
  | .refused _ => []

/-- The bytes on the link after an outcome. -/
def written : Out → List Byte
  | .next s => s.link
  | .fault _ => []
  | .refused _ => []

/-- Mode, device address, phase and the stream left after an outcome. -/
def session : Out → Option (Mode × Byte × Phase × List Byte)
  | .next s => some (s.mode, s.devAddr, s.phase, s.rxStream)
  | .fault _ => none
  | .refused _ => none

/-- Routing unchecked. -/
def routingOff : Params := ⟨false, fun n count => ⟨1000 * count.toNat + n.toNat⟩⟩

/-- Routing checked. -/
def routingOn : Params := { routingOff with checkResponseRouting := true }

/-! ## Well-formedness: the one check, at its boundary -/

theorem test_wellFormed_refuses_65536 :
    (Instr.issue 0x10 0x01 0 (List.replicate 65536 0)).wellFormed = false := by
  simp only [Instr.wellFormed, Instr.payload, List.length_replicate]
  decide

theorem test_wellFormed_refuses_long_frame :
    (Instr.frameStop 0x01 0 (List.replicate 65536 0)).wellFormed = false := by
  simp only [Instr.wellFormed, Instr.payload, List.length_replicate]
  decide

theorem test_wellFormed_takes_65535 :
    (Instr.issue 0x10 0x01 0 (List.replicate 65535 0)).wellFormed = true := by
  simp only [Instr.wellFormed, Instr.payload, List.length_replicate]
  decide

/-! ## Decoding: every constructor's word, written out from 30_encoding R60, R70, R71 -/

/-- L2-E1. -/
theorem test_decode_GetDistance :
    decode [0xAA, 0xAA, 0xAA, 0xAA, 0x01, 0x02, 0, 0, 0, 0, 0x03]
      = .ok (.frameGetDistance 0x01 0 [], []) := by decide
/-- L2-E2. -/
theorem test_decode_Stop :
    decode [0xAA, 0xAA, 0xAA, 0xAA, 0x01, 0x0F, 0, 0, 0, 0, 0x10]
      = .ok (.frameStop 0x01 0 [], []) := by decide
/-- L2-E6. -/
theorem test_decode_Acknowledge :
    decode [0xAA, 0xAA, 0xAA, 0xAA, 0x01, 0x10, 0x34, 0x12, 0x01, 0x00, 0xAB, 0x03]
      = .ok (.frameAcknowledge 0x01 0x1234 [0xAB], []) := by decide
/-- L2-E9, and a byte that follows the frame. -/
theorem test_decode_GetCorrectionCoefficients :
    decode [0xAA, 0xAA, 0xAA, 0xAA, 0x02, 0x12, 0, 0, 0, 0, 0x14, 0x99]
      = .ok (.frameGetCorrectionCoefficients 0x02 0 [], [0x99]) := by decide
/-- L1-1. -/
theorem test_decode_ConfigureAddress :
    decode [0xAA, 0xAA, 0xAA, 0xAA, 0x01, 0x16, 0, 0, 0, 0, 0x17]
      = .ok (.frameConfigureAddress 0x01 0 [], []) := by decide
/-- 30_encoding R70, R72: A is the command, B the address, the payload follows. -/
theorem test_decode_ISSUE :
    decode [0x00, 0x10, 0x01, 0x34, 0x12, 0x02, 0x00, 0x00, 0xAB, 0xCD, 0x05]
      = .ok (.issue 0x10 0x01 0x1234 [0xAB, 0xCD], [0x05]) := by decide
theorem test_decode_AWAIT_RESPONSE :
    decode [0x01, 0, 0, 0, 0, 0, 0, 0] = .ok (.awaitResponse, []) := by decide
theorem test_decode_CONFIGURE_ADDRESS :
    decode [0x02, 0, 0, 0, 0, 0, 0, 0] = .ok (.configureAddress, []) := by decide
theorem test_decode_GET_COEFFICIENTS :
    decode [0x03, 0, 0, 0, 0, 0, 0, 0] = .ok (.getCoefficients, []) := by decide
theorem test_decode_BEGIN_STREAM :
    decode [0x04, 0, 0, 0, 0, 0, 0, 0] = .ok (.beginStream, []) := by decide
theorem test_decode_STOP_STREAM :
    decode [0x05, 0, 0, 0, 0, 0, 0, 0] = .ok (.stopStream, []) := by decide
theorem test_decode_RECEIVE_FRAME :
    decode [0x06, 0, 0, 0, 0, 0x03, 0x02, 0] = .ok (.receiveFrame 0x0203, []) := by decide
theorem test_decode_SET_DEVICE_ADDRESS :
    decode [0x07, 0x02, 0, 0, 0, 0, 0, 0] = .ok (.setDeviceAddress 0x02, []) := by decide

/-- L1-2, L1-3, L2-D2, and the refusals of 30_encoding R73: each rejected by name. -/
theorem test_decode_rejects :
    decode [0xAA, 0xAA, 0xAA, 0xAA, 0x01, 0x16, 0, 0, 0, 0, 0xFF] = .error (.badChecksum 0xFF 0x17)
    ∧ decodePacket [0xFF, 0xFF, 0xFF, 0xAA, 0x01, 0x16, 0, 0, 0, 0, 0x17] = .error .badMarker
    ∧ decode [0xAA, 0xAA, 0xAA, 0xAA, 0x01, 0x55, 0x02, 0x01, 0x01, 0x00, 0x07, 0x61]
        = .error (.unknownCommand 0x55)
    ∧ decode [0x08, 0, 0, 0, 0, 0, 0, 0x01] = .error (.unknownOp 0x08)
    ∧ decode [0x00, 0x10, 0x01, 0, 0, 0x02, 0, 0, 0xAB] = .error .truncated := by decide

/-- L2-E7, L2-E11: sums that wrap, and the encoder on codes outside the catalog. -/
theorem test_encodePacket :
    encodePacket ⟨0xFF, 0xFF, 0xFFFF, [0xFF, 0xFF, 0xFF]⟩
      = [0xAA, 0xAA, 0xAA, 0xAA, 0xFF, 0xFF, 0xFF, 0xFF, 0x03, 0x00, 0xFF, 0xFF, 0xFF, 0xFC]
    ∧ encodePacket ⟨0x00, 0x00, 0x0000, []⟩
      = [0xAA, 0xAA, 0xAA, 0xAA, 0, 0, 0, 0, 0, 0, 0] := by decide

/-- The source forms of 30_encoding R79, R80. -/
theorem test_text :
    (Instr.issue 0x16 0x01 0 []).text = "ISSUE ConfigureAddress, 0x01, 0x0000, []"
    ∧ (Instr.setDeviceAddress 0x2A).text = "SET_DEVICE_ADDRESS 0x2A"
    ∧ (Instr.frameStop 0x01 0 []).text = "AA AA AA AA 01 0F 00 00 00 00 10" := by decide

/-! ## The words of spec/opcode_table.json -/

theorem test_table_words :
    decodeTableWord 8 0x0F = some (.frameStop 0 0 [])
    ∧ decodeTableWord 8 0x10 = some (.frameAcknowledge 0 0 [])
    ∧ decodeTableWord 8 0x12 = some (.frameGetCorrectionCoefficients 0 0 [])
    ∧ decodeTableWord 8 0x16 = some (.frameConfigureAddress 0 0 [])
    ∧ decodeTableWord 8 0x00 = some (.issue 0 0 0 [])
    ∧ decodeTableWord 8 0x02 = some .configureAddress
    ∧ decodeTableWord 8 0x07 = some (.setDeviceAddress 0) := by decide

/-- The next step runs the word: Stop writes its frame, with checksum 0x0F; the transport completes. -/
theorem test_fetch_wire_word :
    written (step ({ State.reset with answers := [.complete] }.withFetchWord 8 0x0F))
      = [0xAA, 0xAA, 0xAA, 0xAA, 0, 0x0F, 0, 0, 0, 0, 0x0F] := by decide

/-- The next step runs the word: SET_DEVICE_ADDRESS with A = 0x2A. -/
theorem test_fetch_host_word :
    session (step (State.reset.withFetchWord 16 0x2A07)) = some (.idle, 0x2A, .ready, []) := by decide

/-! ## Wire commands -/

/-- L2-S1's frame, sent as a frame: MODE becomes Streaming. -/
theorem test_frameGetDistance :
    session (exec (.frameGetDistance 0x01 0 []) (writing (idle [] [.complete])))
      = some (.streaming, 0x01, .ready, []) := by decide
/-- 42_session_ops R151: not in Streaming. -/
theorem test_frameGetDistance_streaming :
    responses (exec (.frameGetDistance 0x01 0 []) (writing (streaming [] [.complete])))
      = [⟨5, 0, some (.stateError 0x00 .streaming), none⟩] := by decide
/-- L2-S7's frame. -/
theorem test_frameStop :
    session (exec (.frameStop 0x05 0 []) (writing (streaming [] [.complete])))
      = some (.idle, 0x01, .ready, [])
    ∧ written (exec (.frameStop 0x05 0 []) (writing (streaming [] [.complete])))
      = [0xAA, 0xAA, 0xAA, 0xAA, 0x05, 0x0F, 0, 0, 0, 0, 0x14] := by decide
/-- L2-E6's frame. -/
theorem test_frameAcknowledge :
    written (exec (.frameAcknowledge 0x01 0x1234 [0xAB]) (writing (idle [] [.complete])))
      = [0xAA, 0xAA, 0xAA, 0xAA, 0x01, 0x10, 0x34, 0x12, 0x01, 0x00, 0xAB, 0x03] := by decide
/-- L2-E3's frame, sent by the ISSUE in REQ: no response is read. -/
theorem test_frameGetCorrectionCoefficients :
    session (exec (.frameGetCorrectionCoefficients 0x01 0 []) (writing (idle [0x55] [.complete])))
      = some (.idle, 0x01, .ready, [0x55]) := by decide
/-- L2-E4's frame, its write outstanding for CONFIGURE_ADDRESS: the header read is issued. -/
theorem test_frameConfigureAddress :
    session (exec (.frameConfigureAddress 0x00 0 [])
        { writing (idle [0x55] [.complete, .complete]) with req := .plain 0x02 })
      = some (.idle, 0x01, .rxHeader, [0x55]) := by decide

/-! ## Host operations -/

/-- L2-S6. -/
theorem test_issue_GetDistance :
    written (run 2 (.issue 0x02 0x01 0 []) (idle [] [.complete]))
        = [0xAA, 0xAA, 0xAA, 0xAA, 0x01, 0x02, 0, 0, 0, 0, 0x03]
    ∧ session (run 2 (.issue 0x02 0x01 0 []) (idle [] [.complete]))
        = some (.streaming, 0x01, .ready, []) := by decide
/-- L2-X3: the unknown command is reported before the mode. -/
theorem test_issue_priority :
    responses (exec (.issue 0x03 0x01 0 []) (streaming [] []))
      = [⟨6, 2, some (.unknownCommand 0x03), none⟩] := by decide
/-- L2-D2. -/
theorem test_awaitResponse_uncatalogued :
    responses (run 4 .awaitResponse
        (idle [0xAA, 0xAA, 0xAA, 0xAA, 0x01, 0x55, 0x02, 0x01, 0x01, 0x00, 0x07, 0x61]
          [.complete, .complete, .complete]))
      = [⟨0, 0, none, some (.packet 0x01 0x55 false 0x0102 1 [0x07])⟩] := by decide
/-- L2-D3: the bad marker is reported, 10 bytes taken, one left. -/
theorem test_awaitResponse_framing :
    responses (run 2 .awaitResponse
        (idle [0xAA, 0xAA, 0xAA, 0x00, 0x01, 0x16, 0, 0, 0, 0, 0x00] [.complete, .complete]))
      = [⟨1, 0, some (.framing 0xAA 0xAA 0xAA 0x00), none⟩]
    ∧ session (run 2 .awaitResponse
        (idle [0xAA, 0xAA, 0xAA, 0x00, 0x01, 0x16, 0, 0, 0, 0, 0x00] [.complete, .complete]))
      = some (.idle, 0x01, .ready, [0x00]) := by decide
/-- L2-S15. -/
theorem test_configureAddress_three :
    responses (runFlow 4 (configureAddressFlow routingOff)
        (idle [0xAA, 0xAA, 0xAA, 0xAA, 0x07, 0x16, 0, 0, 0, 0, 0x1D]
          [.complete, .complete, .complete]))
      = [⟨0, 0, none, some (.deviceCount 3)⟩] := by decide
/-- L2-S20. -/
theorem test_configureAddress_routing :
    responses (runFlow 4 (configureAddressFlow routingOn)
        (idle [0xAA, 0xAA, 0xAA, 0xAA, 0x01, 0x10, 0, 0, 0, 0, 0x11]
          [.complete, .complete, .complete]))
      = [⟨3, 4, some (.routingMismatch 0x01 0x10 none 0x16), none⟩] := by decide
/-- L1-4. -/
theorem test_getCoefficients :
    responses (runFlow 5 (getCoefficientsFlow routingOn)
        (idle [0xAA, 0xAA, 0xAA, 0xAA, 0x01, 0x12, 0, 0, 0x12, 0, 0x7B, 0, 0, 0, 0x79, 0, 0, 0,
            0x81, 0x13, 0, 0, 0x84, 0x15, 0, 0, 0x50, 0, 0x96]
          [.complete, .complete, .complete, .complete]))
      = [⟨0, 0, none, some (.coefficients 123 121 4993 5508 80)⟩] := by decide
/-- L2-X8. -/
theorem test_getCoefficients_length :
    responses (runFlow 5 (getCoefficientsFlow routingOff)
        (idle [0xAA, 0xAA, 0xAA, 0xAA, 0x01, 0x02, 0, 0, 0x0A, 0, 0xE8, 0x03, 0, 0, 0x80, 0x0C,
            0x85, 0x0C, 0x00, 0x0D, 0x22]
          [.complete, .complete, .complete, .complete]))
      = [⟨3, 2, some (.unexpectedPayloadLength 10 18), none⟩] := by decide
/-- L2-S4: a failed write leaves MODE as it was. -/
theorem test_beginStream_fails :
    responses (run 2 .beginStream (idle [] [.fail 3])) = [⟨4, 1, some (.transport .tx), none⟩]
    ∧ session (run 2 .beginStream (idle [] [.fail 3])) = some (.idle, 0x01, .ready, []) := by decide
/-- L2-S1. -/
theorem test_beginStream :
    written (run 2 .beginStream (idle [] [.complete]))
      = [0xAA, 0xAA, 0xAA, 0xAA, 0x01, 0x02, 0, 0, 0, 0, 0x03] := by decide
/-- L2-S2. -/
theorem test_stopStream :
    written (run 2 .stopStream (streaming [] [.complete]))
        = [0xAA, 0xAA, 0xAA, 0xAA, 0x01, 0x0F, 0, 0, 0, 0, 0x10]
    ∧ session (run 2 .stopStream (streaming [] [.complete])) = some (.idle, 0x01, .ready, []) := by
  decide
/-- L2-P15. -/
theorem test_receiveFrame :
    responses (runFlow 4 (receiveFrameFlow routingOff 2)
        (streaming [0xAA, 0xAA, 0xAA, 0xAA, 0x01, 0x02, 0, 0, 0x08, 0, 0x78, 0x56, 0x34, 0x12, 0x34,
            0x12, 0xFF, 0xFF, 0x63]
          [.complete, .complete, .complete]))
      = [⟨0, 0, none, some (.distanceFrame 0x12345678 2
          [⟨0, 36, 52, ⟨2000⟩⟩, ⟨1, 511, 127, ⟨2001⟩⟩])⟩] := by decide
/-- L2-X9. -/
theorem test_receiveFrame_odd :
    responses (runFlow 4 (receiveFrameFlow routingOff 2)
        (streaming [0xAA, 0xAA, 0xAA, 0xAA, 0x01, 0x02, 0, 0, 0x05, 0, 0, 0, 0, 0, 0, 0x08]
          [.complete, .complete, .complete]))
      = [⟨3, 2, some (.unexpectedPayloadLength 5 8), none⟩] := by decide
/-- L2-S13. -/
theorem test_setDeviceAddress :
    session (exec (.setDeviceAddress 0x02) (idle [] [])) = some (.idle, 0x02, .ready, []) := by decide
/-- L2-S11. -/
theorem test_setDeviceAddress_streaming :
    responses (exec (.setDeviceAddress 0x01) (streaming [] []))
      = [⟨5, 0, some (.stateError 0x07 .streaming), none⟩] := by decide

/-! ## Steps -/

/-- L2-S16, from the host port's bytes: ReservedField, nothing written. -/
theorem test_step_reserved :
    responses (step { idle [] [] with hostIn := [0x05, 0x01, 0, 0, 0, 0, 0, 0] })
      = [⟨6, 3, some (.reservedField 0x05), none⟩] := by decide

/-- 00_scope R7: BEGIN_STREAM is two steps, the issue of its TxWrite and its response. -/
theorem test_step_once_per_transaction :
    let s : State := { idle [] [.complete] with hostIn := [0x04, 0, 0, 0, 0, 0, 0, 0] }
    session (step s) = some (.idle, 0x01, .tx, []) ∧ written (step s) = []
    ∧ session (repeatStep step 2 s) = some (.streaming, 0x01, .ready, [])
    ∧ written (repeatStep step 2 s) = [0xAA, 0xAA, 0xAA, 0xAA, 0x01, 0x02, 0, 0, 0, 0, 0x03] := by
  decide

/-- 43_payload_decoders R203 at the top of its range: `expected` is 4 + 2 * 65535. -/
theorem test_decodeDistance_expected_range :
    decodeDistance routingOff [0] 0xFFFF = .error (.unexpectedPayloadLength 1 131074) := by decide

/-- A request offered only in part is not begun (30_encoding R72). -/
theorem test_step_partial_request :
    session (step { idle [] [] with hostIn := [0x00, 0x10, 0x01, 0, 0, 0x02, 0, 0, 0xAB] })
      = some (.idle, 0x01, .ready, []) := by decide

/-- A reset while the payload is read: no response, the registers at their reset values, two bytes of the
stream taken (70_reset R261, with U10's count drawn as 2). -/
theorem test_step_reset :
    session (step { streaming [1, 2, 3] [] with
        devAddr := 0x05, phase := .rxPayload, declLen := 3, platform := [.reset false 2] })
      = some (.idle, 0x01, .ready, [3]) := by decide

/-! ## Witnesses: states and operands that meet the hypotheses of each statement -/

/-- A ConfigureAddress response with this device mask. -/
def reply (mask : Byte) : Packet := ⟨mask, 0x16, 0, []⟩

/-- A calibration response from device 1, all 18 bytes zero. -/
def calibration : Packet := ⟨0x01, 0x12, 0, List.replicate 18 0⟩

/-- A distance frame from device 1 with this many zero samples. -/
def distances (count : Nat) : Packet := ⟨0x01, 0x02, 0, List.replicate (4 + 2 * count) 0⟩

/-- Idle, with a packet's frame in the stream, and answers for a write and the whole Decode. -/
def answered (p : Packet) : State := idle (encodePacket p) (.complete :: (readAnswers p ++ []))

/-- The header of a packet's frame, as HDR holds it. -/
def headerOf (p : Packet) : Header := (State.reset.received p [] []).hdr

/-- A read outstanding, with what the reads before it left of a packet's frame. -/
def reading (ph : Phase) (p : Packet) (rx : List Byte) (as : List Answer) : State :=
  { idle rx as with
    phase := ph, hdr := headerOf p, declLen := BitVec.ofNat 16 p.payload.length
    rxpay := Memory.writeBytes [] 0 p.payload }

/-- The host offers this request. -/
def offered (i : Instr) (s : State) : State := { s with hostIn := encode i }

/-- The state a step of BEGIN_STREAM from READY leads to: its write outstanding. -/
def sendingBegin (as : List Answer) : State :=
  { (idle [] as).loadTx [0xAA, 0xAA, 0xAA, 0xAA, 0x01, 0x02, 0, 0, 0, 0, 0x03] with
    req := requestOf .beginStream }

theorem witness_DecodeEncodeRoundTrip :
    (Instr.issue 0x10 0x01 0x1234 [0xAB]).wellFormed = true
    ∧ (Instr.frameStop 0xFF 0xFFFF []).wellFormed = true := by decide

theorem witness_DecodeAcceptsOnlyEncodings :
    decode [0x07, 0xFF, 0, 0, 0, 0, 0, 0, 0x01] = .ok (.setDeviceAddress 0xFF, [0x01]) := by decide

/-- The longest payload, for every statement about payloads of at most 65535 bytes. -/
theorem witness_longest_payload :
    (List.replicate 65535 (0xFF : Byte)).length ≤ 65535 := by
  rw [List.length_replicate]

theorem witness_CatalogIsFiveCodes : known 0x03 = false := by decide

/-- Before TX, and with the write outstanding. -/
theorem witness_BeginStreamEntersStreaming :
    ((idle [] []).mode = .idle ∧ (idle [] []).phase ≠ .tx)
    ∧ ((writing (idle [] [.complete])).mode = .idle ∧ (writing (idle [] [.complete])).phase = .tx
      ∧ (writing (idle [] [.complete])).answers = .complete :: []) := by decide

theorem witness_StopStreamLeavesStreaming :
    (streaming [] []).phase ≠ .tx
    ∧ (writing (streaming [] [.complete])).phase = .tx
    ∧ (writing (streaming [] [.complete])).answers = .complete :: [] := by decide

theorem witness_SetDeviceAddressWritesDevAddr : (idle [] []).mode = .idle := by decide

/-- A command in Idle, and Stop in Streaming. -/
theorem witness_IssueSendsThePacket :
    (known 0x10 = true ∧ ((idle [] []).mode = .idle ∨ (0x10 : Byte) = 0x0F)
      ∧ (idle [] []).phase ≠ .tx)
    ∧ (known 0x0F = true
      ∧ ((writing (streaming [] [.complete])).mode = .idle ∨ (0x0F : Byte) = 0x0F)
      ∧ (writing (streaming [] [.complete])).phase = .tx
      ∧ (writing (streaming [] [.complete])).answers = .complete :: []) := by decide

theorem witness_WireCommandsSendTheirFrame :
    let s := writing (idle [] [.complete])
    s.phase = .tx ∧ s.answers = .complete :: [] ∧ s.mode = .idle
    ∧ s.req.op ≠ 0x02 ∧ s.req.op ≠ 0x03 := by decide

theorem witness_WireCommandContinuesItsOperation :
    let s (op : Byte) : State := { writing (idle [] [.complete]) with req := .plain op }
    let i : Instr := .frameConfigureAddress 0x00 0 []
    isHostOp i = false ∧ (s 0x02).packetSent i = some (reply 0x00)
    ∧ modeAllows (s 0x02).mode i = true ∧ (s 0x02).phase = .tx
    ∧ (s 0x02).answers = .complete :: []
    ∧ (s 0x02).req.op = 0x02 ∧ (s 0x03).req.op = 0x03 := by decide

/-- BEGIN_STREAM with its write outstanding. -/
theorem witness_WireCommandRunsItsOperation :
    (sendingBegin []).inv = true ∧ (sendingBegin []).phase = .tx
    ∧ (sendingBegin []).requested = .ok .beginStream := by decide

/-- STOP_STREAM in Streaming, for each clause. -/
theorem witness_UnfinishedWrite :
    let s (as : List Answer) : State := writing (streaming [] as)
    ((streaming [] []).packetSent .stopStream = some ⟨0x01, 0x0F, 0, []⟩ ∧ known 0x0F = true
      ∧ modeAllows (streaming [] []).mode .stopStream = true
      ∧ (streaming [] []).receiving = false ∧ (streaming [] []).phase ≠ .tx)
    ∧ ((s []).packetSent .stopStream = some ⟨0x01, 0x0F, 0, []⟩
      ∧ modeAllows (s []).mode .stopStream = true ∧ (s []).receiving = false ∧ (s []).phase = .tx)
    ∧ (s [.fail 11]).answers = .fail 11 :: [] ∧ (s [.fail 0]).answers = .fail 0 :: []
    ∧ (s [.silent]).answers = .silent :: [] ∧ (s []).answers = [] := by decide

theorem witness_OversizedFrameStops :
    let p : Packet := ⟨0x01, 0x10, 0, List.replicate 65536 0⟩
    (idle [] []).packetSent (.issue 0x10 0x01 0 p.payload) = some p ∧ known p.cmd = true
    ∧ modeAllows (idle [] []).mode (.issue 0x10 0x01 0 p.payload) = true
    ∧ (idle [] []).receiving = false ∧ 65535 < p.payload.length := by
  refine ⟨rfl, rfl, rfl, rfl, ?_⟩
  rw [List.length_replicate]
  decide

theorem witness_AwaitResponseReturnsThePacket :
    let s := idle (encodePacket (distances 1) ++ [0x55]) [.complete, .complete, .complete, .silent]
    s.mode = .idle ∧ s.receiving = false ∧ (distances 1).payload.length ≤ 65535
    ∧ s.rxStream = encodePacket (distances 1) ++ [0x55]
    ∧ s.answers = readAnswers (distances 1) ++ [.silent] := by decide

/-- Each of the three device masks. -/
theorem witness_ConfigureAddressCountsDevices :
    (∀ mask ∈ [(0x01 : Byte), 0x03, 0x07],
      (answered (reply mask)).mode = .idle ∧ (answered (reply mask)).starting = true
      ∧ (reply mask).payload.length ≤ 65535 ∧ (reply mask).cmd = 0x16
      ∧ (answered (reply mask)).rxStream = encodePacket (reply mask) ++ []
      ∧ (answered (reply mask)).answers = .complete :: (readAnswers (reply mask) ++ []))
    ∧ ((reply 0x07).addr, (3 : Byte)) ∈ [((0x01 : Byte), (1 : Byte)), (0x03, 2), (0x07, 3)] := by
  decide

theorem witness_GetCoefficientsReturnsCalibration :
    (answered calibration).mode = .idle ∧ (answered calibration).starting = true
    ∧ calibration.payload.length = 18
    ∧ (answered calibration).rxStream = encodePacket calibration ++ []
    ∧ (answered calibration).answers = .complete :: (readAnswers calibration ++ [])
    ∧ calibration.cmd = 0x12 ∧ calibration.addr = (answered calibration).devAddr := by decide

/-- No sample, and three. -/
theorem witness_ReceiveFrameReturnsSamples :
    ∀ count ∈ [0, 3],
      let p := distances count
      let s := streaming (encodePacket p) (readAnswers p)
      s.mode = .streaming ∧ s.receiving = false
      ∧ p.payload.length = 4 + 2 * (BitVec.ofNat 16 count).toNat ∧ p.payload.length ≤ 65535
      ∧ s.rxStream = encodePacket p ++ [] ∧ s.answers = readAnswers p ++ []
      ∧ p.cmd = 0x02 ∧ p.addr = s.devAddr := by decide

/-- A stream for each of the decoder's outcomes: one packet, a bad marker, a bad checksum, nine bytes,
and a payload one byte short. -/
theorem witness_AwaitResponseRefinesFrameDecoder :
    let s (rx : List Byte) := idle rx [.complete, .complete, .complete]
    (∀ rx ∈ [encodePacket (reply 0x03), List.replicate 11 0x55,
          [0xAA, 0xAA, 0xAA, 0xAA, 0x05, 0x16, 0, 0, 0, 0, 0x00], List.replicate 9 0xAA,
          (encodePacket (distances 0)).take 13],
        (s rx).mode = .idle ∧ (s rx).receiving = false
        ∧ (s rx).answers = .complete :: .complete :: .complete :: [])
    ∧ decodePacket (encodePacket (reply 0x03)) = .ok (reply 0x03, [])
    ∧ decodePacket (List.replicate 11 0x55) = .error .badMarker
    ∧ decodePacket [0xAA, 0xAA, 0xAA, 0xAA, 0x05, 0x16, 0, 0, 0, 0, 0x00]
        = .error (.badChecksum 0x00 0x1B)
    ∧ decodePacket (List.replicate 9 0xAA) = .error .truncated
    ∧ decodePacket ((encodePacket (distances 0)).take 13) = .error .truncated := by decide

/-- A state for each of Decode's outcomes, the last with a transport that is silent once. -/
theorem witness_DecodeByteAccounting :
    (∃ p t, recvTimes 3 (idle (encodePacket (reply 0x03)) [.complete, .complete]) = .run p t)
    ∧ (∃ t, recvTimes 2 (idle (List.replicate 10 0x55) [.complete])
        = .err (.framing 0x55 0x55 0x55 0x55) t)
    ∧ (∃ t, recvTimes 3 (idle [0xAA, 0xAA, 0xAA, 0xAA, 0x05, 0x16, 0, 0, 0, 0, 0x00]
          [.complete, .complete]) = .err (.checksum 0x00 0x1B) t)
    ∧ (∃ t, recvTimes 2 (idle [] [.fail 0]) = .err (.transport .rxHeader) t)
    ∧ (∃ t, recvTimes 3 (idle (encodePacket calibration) [.complete, .fail 20])
        = .err (.transport .rxPayload) t)
    ∧ (∃ t, recvTimes 5 (idle (encodePacket calibration) [.complete, .silent, .complete, .fail 1])
        = .err (.transport .rxChecksum) t)
    ∧ (idle [] []).receiving = false :=
  ⟨⟨_, _, rfl⟩, ⟨_, rfl⟩, ⟨_, rfl⟩, ⟨_, rfl⟩, ⟨_, rfl⟩, ⟨_, rfl⟩, rfl⟩

/-- Each of the three reads outstanding, of a frame with a payload, and the header read of one
without. -/
theorem witness_ResumedReadsFinishTheFrame :
    let p := distances 0
    let ck := checksum p.addr p.cmd p.off p.payload
    let s0 (q : Packet) := reading .rxHeader q (headerBytes q ++ [0x55]) [.complete]
    let s1 := reading .rxPayload p (p.payload ++ [ck]) [.complete]
    let s2 := reading .rxChecksum p [ck] [.complete]
    p.payload.length ≤ 65535 ∧ p.payload ≠ [] ∧ (reply 0x01).payload = []
    ∧ (∀ q ∈ [p, reply 0x01], (s0 q).phase = .rxHeader ∧ (s0 q).rxStream = headerBytes q ++ [0x55]
      ∧ (s0 q).answers = .complete :: [])
    ∧ (s1.phase = .rxPayload ∧ s1.declLen = BitVec.ofNat 16 p.payload.length
      ∧ s1.rxStream = p.payload ++ [ck] ∧ s1.answers = .complete :: [])
    ∧ (s2.phase = .rxChecksum ∧ s2.hdr = headerOf p
      ∧ s2.declLen = BitVec.ofNat 16 p.payload.length ∧ s2.rxPayloadBytes = p.payload
      ∧ s2.rxStream = ck :: [] ∧ s2.answers = .complete :: []) := by decide

/-- A bad marker, a bad checksum, and each read of bytes that are not there. -/
theorem witness_BadFramesAreReported :
    let p := distances 0
    let s (ph : Phase) (rx : List Byte) := reading ph p rx [.complete]
    (∀ ph rx, (s ph rx).answers = .complete :: [])
    ∧ ((s .rxHeader [0xAA, 0xAA, 0xAA, 0, 1, 2, 3, 4, 5, 6, 7]).phase = .rxHeader
      ∧ (s .rxHeader [0xAA, 0xAA, 0xAA, 0, 1, 2, 3, 4, 5, 6, 7]).rxStream
        = [0xAA, 0xAA, 0xAA, 0, 1, 2, 3, 4, 5, 6] ++ [7]
      ∧ [(0xAA : Byte), 0xAA, 0xAA, 0] ≠ [0xAA, 0xAA, 0xAA, 0xAA])
    ∧ (let t := s .rxChecksum [0x55]
      t.phase = .rxChecksum ∧ t.rxStream = 0x55 :: []
      ∧ 0x55 ≠ checksum t.hdr.addr t.hdr.cmd t.hdr.off t.rxPayloadBytes)
    ∧ ((s .rxHeader (List.replicate 9 0xAA)).phase = .rxHeader
      ∧ (s .rxHeader (List.replicate 9 0xAA)).rxStream.length < 10)
    ∧ ((s .rxPayload [1, 2, 3]).phase = .rxPayload
      ∧ (s .rxPayload [1, 2, 3]).rxStream.length < (s .rxPayload [1, 2, 3]).declLen.toNat)
    ∧ ((s .rxChecksum []).phase = .rxChecksum ∧ (s .rxChecksum []).rxStream = []) :=
  ⟨fun _ _ => rfl, by decide, by decide, by decide, by decide, by decide⟩

theorem witness_FailedReadReportsItsPhase :
    let s (p : Phase) : State := { idle [1, 2, 3] [.fail 9] with phase := p, declLen := 2 }
    (∀ p ∈ [Phase.rxHeader, .rxPayload, .rxChecksum], (s p).answers = .fail 9 :: [])
    ∧ (s .rxHeader).phase = .rxHeader ∧ (s .rxPayload).phase = .rxPayload
    ∧ (s .rxChecksum).phase = .rxChecksum := by decide

/-- For CONFIGURE_ADDRESS: a mask of no device, one accepted, one refused. -/
theorem witness_ConfigureAddressChecksInOrder :
    ∀ mask ∈ [(0x00 : Byte), 0x07, 0x0F],
      (answered (reply mask)).mode = .idle ∧ (answered (reply mask)).starting = true
      ∧ (reply mask).payload.length ≤ 65535
      ∧ (answered (reply mask)).rxStream = encodePacket (reply mask) ++ []
      ∧ (answered (reply mask)).answers = .complete :: (readAnswers (reply mask) ++ []) := by decide

/-- For GET_COEFFICIENTS: 18 bytes of another command's response, of its own, and no byte. -/
theorem witness_GetCoefficientsChecksInOrder :
    ∀ p ∈ [distances 7, calibration, ⟨0x01, 0x12, 0, []⟩],
      (answered p).mode = .idle ∧ (answered p).starting = true ∧ p.payload.length ≤ 65535
      ∧ (answered p).rxStream = encodePacket p ++ []
      ∧ (answered p).answers = .complete :: (readAnswers p ++ []) := by decide

/-- For RECEIVE_FRAME: another command, three bytes, five bytes, a count of one, a count of two; and the
length the two largest expectedPointCounts want, in 18 bits. -/
theorem witness_ReceiveFrameChecksInOrder :
    (∀ p ∈ [calibration, ⟨0x01, 0x02, 0, [0, 0, 0]⟩, ⟨0x01, 0x02, 0, [0, 0, 0, 0, 0]⟩, distances 1,
        distances 2],
      let s := streaming (encodePacket p) (readAnswers p)
      s.mode = .streaming ∧ s.receiving = false ∧ p.payload.length ≤ 65535
      ∧ s.rxStream = encodePacket p ++ [] ∧ s.answers = readAnswers p ++ [])
    ∧ (131072 : BitVec 18).toNat = 4 + 2 * (65534 : Half).toNat
    ∧ (131074 : BitVec 18).toNat = 4 + 2 * (65535 : Half).toNat := by decide

/-- The masks next to the accepted ones. -/
theorem witness_AddressCountPatterns :
    ∀ a ∈ [(0x00 : Byte), 0x02, 0x04, 0x06, 0x08, 0xFF], a ≠ 0x01 ∧ a ≠ 0x03 ∧ a ≠ 0x07 := by decide

theorem witness_CalibrationFields :
    (List.replicate 17 (0 : Byte)).length ≠ 18 ∧ (List.replicate 18 (0 : Byte)).length = 18
    ∧ (List.replicate 19 (0 : Byte)).length ≠ 18 := by decide

theorem witness_SamplesAreIndependent :
    ([1, 2, 3, 4] : List Byte).length = 4 + 2 * (0 : Half).toNat
    ∧ ([1, 2, 3, 4, 5, 6] : List Byte).length = 4 + 2 * (1 : Half).toNat := by decide

theorem witness_RoutingCheck :
    routingOff.checkResponseRouting = false ∧ routingOn.checkResponseRouting = true
    ∧ (reply 0x01).cmd = 0x16 ∧ (none : Option Byte) = none
    ∧ some (0x01 : Byte) = some (reply 0x01).addr ∧ (reply 0x01).cmd ≠ 0x12
    ∧ ∃ a, some (0x02 : Byte) = some a ∧ (reply 0x01).addr ≠ a := by
  refine ⟨rfl, rfl, rfl, rfl, rfl, by decide, 0x02, rfl, by decide⟩

/-- Seven samples, and the counts next to it. -/
theorem witness_ResidualFrameReadAsCalibration :
    ∀ count ∈ [6, 7, 8],
      routingOff.checkResponseRouting = false
      ∧ (answered (distances count)).mode = .idle ∧ (answered (distances count)).starting = true
      ∧ (distances count).payload.length = 4 + 2 * count
      ∧ (distances count).payload.length ≤ 65535
      ∧ (answered (distances count)).rxStream = encodePacket (distances count) ++ []
      ∧ (answered (distances count)).answers
          = .complete :: (readAnswers (distances count) ++ []) := by decide

/-- An operation not legal, one legal, and an ISSUE at the edge of its row. -/
theorem witness_ModeTableIsEnforced :
    (streaming [] []).receiving = false ∧ known 0x10 = true
    ∧ modeAllows (streaming [] []).mode .getCoefficients = false
    ∧ modeAllows (streaming [] []).mode (.issue 0x10 0x01 0 []) = false
    ∧ modeAllows (streaming [] []).mode (.issue 0x0F 0x01 0 []) = true
    ∧ ∃ t, exec .stopStream (streaming [] []) = .next t :=
  ⟨rfl, rfl, rfl, rfl, rfl, _, rfl⟩

/-- OP 0x08, OP 0x07 with RSV set, STOP_STREAM with A set, an ISSUE of an uncatalogued code. -/
theorem witness_MalformedRequestsAreRefused :
    let s (bs : List Byte) : State := { idle [] [] with hostIn := bs }
    let t08 : List Byte := [0x08, 0, 0, 0, 0, 0, 0, 1]
    let t07 : List Byte := [0x07, 0, 0, 0, 0, 0, 0, 1]
    let t05 : List Byte := [0x05, 1, 0, 0, 0, 0, 0, 0]
    let t00 : List Byte := [0x00, 0x03, 1, 0, 0, 0, 0, 0]
    (∀ bs ∈ [t08, t07, t05, t00], (s bs).platform = [] ∧ (s bs).phase = .ready)
    ∧ takeRequest (s t08).hostIn = some (⟨0x08, 0, 0, 0, 0, 1, []⟩, [])
    ∧ takeRequest (s t07).hostIn = some (⟨0x07, 0, 0, 0, 0, 1, []⟩, [])
    ∧ takeRequest (s t05).hostIn = some (⟨0x05, 1, 0, 0, 0, 0, []⟩, [])
    ∧ takeRequest (s t00).hostIn = some (⟨0x00, 0x03, 1, 0, 0, 0, []⟩, [])
    ∧ known 0x03 = false := by decide

/-- BEGIN_STREAM and the wire command that carries it, each at a write that fails, and the machine's step
there. -/
theorem witness_ErrorsKeepTheSession :
    let s := sendingBegin [.fail 0]
    let r := Response.error (.transport .tx)
    (∃ t, exec .beginStream s = .next t ∧ t.hostOut = s.hostOut ++ [r])
    ∧ (∃ t, exec (.frameGetDistance 0x01 0 []) s = .next t ∧ t.hostOut = s.hostOut ++ [r])
    ∧ (∀ l m ps, s.platform ≠ .reset l m :: ps)
    ∧ (∃ t, step s = .next t ∧ t.hostOut = s.hostOut ++ [r]) ∧ r.status ≠ 0 :=
  ⟨⟨_, rfl, rfl⟩, ⟨_, rfl, rfl⟩, fun l m ps h => (by cases h), ⟨_, rfl, rfl⟩, by decide⟩

theorem witness_SendingOperationsFrame :
    (idle [] []).packetSent .beginStream = some ⟨0x01, 0x02, 0, []⟩ ∧ (idle [] []).phase ≠ .tx
    ∧ (∃ t, exec .beginStream (idle [] []) = .next t)
    ∧ (writing (idle [] [.complete])).packetSent .beginStream = some ⟨0x01, 0x02, 0, []⟩
    ∧ (writing (idle [] [.complete])).phase = .tx
    ∧ ∃ t, exec .beginStream (writing (idle [] [.complete])) = .next t :=
  ⟨rfl, by decide, ⟨_, rfl⟩, rfl, rfl, _, rfl⟩

/-- Before the send, in TX, and at a read: resumed, and of an operation that sends nothing. -/
theorem witness_ReceivingOperationsFrame :
    let rd := reading .rxPayload calibration calibration.payload [.complete]
    (idle [] []).packetSent .getCoefficients = some ⟨0x01, 0x12, 0, []⟩
    ∧ (idle [] []).packetSent .awaitResponse = none
    ∧ (∃ t, exec .getCoefficients (idle [] []) = .next t)
    ∧ (∃ t, exec .getCoefficients (writing (idle [] [.complete])) = .next t)
    ∧ (rd.receiving = true ∧ rd.phase = .rxPayload)
    ∧ (∃ t, exec .getCoefficients rd = .next t ∧ t.phase = .rxChecksum)
    ∧ ∃ t, exec .awaitResponse (idle [] []) = .next t :=
  ⟨rfl, rfl, ⟨_, rfl⟩, ⟨_, rfl⟩, ⟨rfl, rfl⟩, ⟨_, rfl, rfl⟩, _, rfl⟩

/-- In TX, where a run has it, for an operation that receives and for one that does not, and before. -/
theorem witness_WireCommandsFrame :
    let i : Instr := .frameGetCorrectionCoefficients 0x01 0 []
    let s (op : Byte) : State := { writing (idle [] [.complete]) with req := .plain op }
    isHostOp i = false ∧ (∀ op, (s op).packetSent i = some ⟨0x01, 0x12, 0, []⟩)
    ∧ ((s 0x03).phase = .tx ∧ ∃ t, exec i (s 0x03) = .next t)
    ∧ (∃ t, exec i (s 0x00) = .next t)
    ∧ ((idle [] []).phase ≠ .tx ∧ ∃ t, exec i (idle [] []) = .next t) :=
  ⟨rfl, fun _ => rfl, ⟨rfl, _, rfl⟩, ⟨_, rfl⟩, by decide, _, rfl⟩

theorem witness_TypedSendsActLikeIssue : (idle [] []).mode = .idle := rfl

/-- CONFIGURE_ADDRESS before its send, in TX, and at each of its reads. -/
theorem witness_TypedReceivesActLikeIssueThenAwait :
    (idle [] []).packetSent .configureAddress = some (reply 0x00) ∧ (idle [] []).mode = .idle
    ∧ (idle [] []).starting = true
    ∧ ((writing (idle [] [.complete])).phase = .tx
      ∧ (writing (idle [] [.complete])).answers = .complete :: [])
    ∧ (let s := reading .rxHeader (reply 0x03) (encodePacket (reply 0x03)) [.complete]
      s.mode = .idle ∧ s.receiving = true
      ∧ ∃ u, exec .awaitResponse s = .next u ∧ u.hostOut = s.hostOut)
    ∧ (let s := reading .rxChecksum (reply 0x03) [0x19] [.complete]
      s.mode = .idle ∧ s.receiving = true
      ∧ ∃ u, exec .awaitResponse s = .next u ∧ u.hostOut ≠ s.hostOut) :=
  ⟨rfl, rfl, rfl, ⟨rfl, rfl⟩, ⟨rfl, rfl, _, rfl, rfl⟩, ⟨rfl, rfl, _, rfl, by decide⟩⟩

/-- A request at the host port, a frame in TXBUF, and an operation resumed in RX_PAYLOAD. -/
theorem witness_StepRunsTheDecodedInstruction :
    let s1 : State := { idle [] [] with hostIn := encode (.receiveFrame 3) ++ [0x01] }
    let s2 : State := (idle [] []).loadTx (encode (.frameStop 0x01 0 []))
    let s3 : State := { streaming [] [] with phase := .rxPayload, req := requestOf (.receiveFrame 3) }
    (s1.platform = [] ∧ (Instr.receiveFrame 3).wellFormed = true ∧ s1.phase = .ready
      ∧ isHostOp (.receiveFrame 3) = true)
    ∧ (s2.phase = .tx ∧ isHostOp (.frameStop 0x01 0 []) = false
      ∧ s2.txFrame = encode (.frameStop 0x01 0 []))
    ∧ (s3.phase ≠ .ready ∧ s3.phase ≠ .tx ∧ decodeRequest s3.req = .ok (.receiveFrame 3)) := by
  decide

/-- BEGIN_STREAM over its two steps: PHASE is not READY before the last. -/
theorem witness_StepsRunTheOperationToItsEnd :
    let s := offered .beginStream (idle [] [.complete])
    let s0 := s.latch (requestOf .beginStream) []
    s.inv = true ∧ s.platform = [] ∧ s.phase = .ready ∧ Instr.beginStream.wellFormed = true
    ∧ isHostOp .beginStream = true ∧ s.hostIn = encode .beginStream ++ []
    ∧ ∀ m ≤ 1, ∀ u, repeatStep (exec .beginStream) m s0 = .next u → u.phase ≠ .ready := by
  refine ⟨by decide, rfl, rfl, by decide, rfl, by decide, fun m hm u hu => ?_⟩
  obtain rfl | rfl : m = 0 ∨ m = 1 := by omega
  · cases hu
    decide
  · cases hu
    decide

theorem witness_PlatformRunIsTransparent :
    { idle [] [] with platform := [.run] }.platform = .run :: [] := rfl

/-- A request accepted and answered, a transaction not answered, and one answered. -/
theorem witness_OneResponsePerRequest :
    let s1 := offered (.setDeviceAddress 0x02) (idle [] [])
    let s2 : State := { idle [] [.silent] with phase := .rxHeader, req := .plain 0x01 }
    let s3 := sendingBegin [.complete]
    (s1.platform = [] ∧ (takeRequest s1.hostIn).isSome = true ∧ s1.inv = true
      ∧ s1.waiting = false ∧ ∃ t, step s1 = .next t)
    ∧ (s2.platform = [] ∧ s2.phase ≠ .ready ∧ s2.inv = true ∧ s2.waiting = true
      ∧ ∃ t, step s2 = .next t)
    ∧ (s3.platform = [] ∧ s3.phase ≠ .ready ∧ s3.inv = true ∧ s3.waiting = true
      ∧ ∃ t, step s3 = .next t) :=
  ⟨⟨rfl, by decide, by decide, rfl, _, rfl⟩, ⟨rfl, by decide, by decide, rfl, _, rfl⟩,
    rfl, by decide, by decide, rfl, _, rfl⟩

theorem witness_OfferedRequestIsHeld :
    let s1 : State := { offered (.setDeviceAddress 0x02) (idle [] []) with
      phase := .rxHeader, req := .plain 0x01 }
    let s2 : State := { idle [] [] with hostIn := [0x00, 0x10, 0x01, 0, 0, 0x01, 0, 0] }
    (s1.platform = [] ∧ s1.phase ≠ .ready ∧ ∃ t, step s1 = .next t)
    ∧ (s2.platform = [] ∧ s2.phase = .ready ∧ takeRequest s2.hostIn = none) :=
  ⟨⟨rfl, by decide, _, rfl⟩, rfl, rfl, rfl⟩

/-- RECEIVE_FRAME waiting for its header, and BEGIN_STREAM waiting for its write. -/
theorem witness_UnansweredTransactionHoldsTheBlock :
    let s1 : State := { streaming [] [] with phase := .rxHeader, req := requestOf (.receiveFrame 3) }
    let s2 := sendingBegin [.silent]
    (s1.inv = true ∧ s1.platform = [] ∧ s1.waiting = true ∧ s1.answers = [])
    ∧ (s2.inv = true ∧ s2.platform = [] ∧ s2.waiting = true ∧ s2.answers = .silent :: []) := by decide

/-- A reset in each phase a transaction is outstanding, and in READY with a whole request offered and
with none. -/
theorem witness_PlatformResetAtAnyTime :
    let s (p : Phase) (l : Bool) : State := { idle [1, 2, 3] [] with
      phase := p, declLen := 2, platform := [.reset l 1] }
    (∀ p ∈ [Phase.ready, .tx, .rxHeader, .rxPayload, .rxChecksum], ∀ l ∈ [false, true],
      (s p l).platform = .reset l 1 :: [] ∧ (s p l).phase = p)
    ∧ (s .ready false).waiting = false ∧ takeRequest (s .ready true).hostIn = none
    ∧ takeRequest (offered .beginStream (s .ready true)).hostIn
        = some (requestOf .beginStream, []) := by decide

/-- Reset, a BEGIN_STREAM about to run, and its write outstanding. -/
theorem witness_StepKeepsInvariant :
    let s := offered .beginStream (idle [] [])
    State.reset.inv = true ∧ s.inv = true ∧ ∃ t, step s = .next t ∧ t.phase = .tx :=
  ⟨rfl, rfl, _, rfl, rfl⟩

theorem witness_InvariantStepNeverStops :
    (offered .beginStream (idle [] [.complete])).inv = true
    ∧ (sendingBegin [.complete]).inv = true := by decide

theorem witness_ModeChangesOnlyAfterAWrite :
    let s := sendingBegin [.complete]
    (∀ l m ps, s.platform ≠ .reset l m :: ps) ∧ ∃ t, step s = .next t ∧ t.mode ≠ s.mode :=
  ⟨fun l m ps h => (by cases h), _, rfl, by decide⟩

theorem witness_OnlySetDeviceAddressWritesDevAddr :
    let s := offered (.setDeviceAddress 0x02) (idle [] [])
    (∀ l m ps, s.platform ≠ .reset l m :: ps) ∧ ∃ t, step s = .next t ∧ t.devAddr ≠ s.devAddr :=
  ⟨fun l m ps h => (by cases h), _, rfl, by decide⟩

theorem witness_PortsOnlyMoveForward :
    (∃ t, step (offered .stopStream (idle [] [.complete])) = .next t)
    ∧ ∃ t, step (sendingBegin [.complete]) = .next t := ⟨⟨_, rfl⟩, _, rfl⟩

end Sys2Proof.Tests
end

/-! # The family 10_state: what every step keeps

First the facts the three statements share: the wire decoder reads back a frame, a latched request names
its operation by OP, and TX runs the frame in TXBUF. Then the invariant (O55), and the writes to MODE and
DEV_ADDR (O57, O58). -/

namespace Sys2Proof

/-! ## The decoders -/

/-- The wire decoder reads back the packet of a frame and leaves what follows (40_frame_codec R111). -/
theorem decodePacket_encodePacket (p : Packet) (rest : List Byte)
    (hp : p.payload.length ≤ maxPayload) :
    decodePacket (encodePacket p ++ rest) = .ok (p, rest) := by
  simp [encodePacket_eq, decodePacket, startMarker, length_field _ hp]

/-- A catalogued packet is a wire command (41_command_catalog R130). -/
theorem wireInstr_of_known (p : Packet) (hk : known p.cmd = true) : ∃ i, wireInstr p = .ok i := by
  simp only [known, Bool.or_eq_true, beq_iff_eq] at hk
  unfold wireInstr
  obtain (((h | h) | h) | h) | h := hk <;> rw [h] <;> exact ⟨_, rfl⟩

/-- The frame of a catalogued packet decodes to the wire command the packet is. -/
theorem decodeWire_encodePacket (p : Packet) (hp : p.payload.length ≤ maxPayload) {i : Instr}
    (hi : wireInstr p = .ok i) : decodeWire (encodePacket p) = .ok (i, []) := by
  have hd := decodePacket_encodePacket p [] hp
  rw [List.append_nil] at hd
  simp only [decodeWire, hd, hi]

/-- Whatever the wire decoder reads is the wire command of some packet. -/
theorem decodeWire_ok {bs rest : List Byte} {i : Instr} (h : decodeWire bs = .ok (i, rest)) :
    ∃ p, wireInstr p = .ok i := by
  unfold decodeWire at h
  split at h
  · cases h
  · rename_i p _ _
    refine ⟨p, ?_⟩
    split at h
    · cases h
    · cases h; assumption

/-- A request names a host operation with its own OP (30_encoding R71). -/
theorem decodeRequest_op {r : Request} {i : Instr} (h : decodeRequest r = .ok i) :
    Machine.isHostOp i = true ∧ (requestOf i).op = r.op := by
  unfold decodeRequest at h
  split at h
  · cases h
  split at h
  · cases h
  iterate 7
    split at h
    · cases h; exact ⟨rfl, Eq.symm ‹_›⟩
  rename_i hop _ _ _ _ _ _ _ _
  cases h
  refine ⟨rfl, ?_⟩
  show (0x07 : Byte) = r.op
  bv_omega

/-- The address of a SET_DEVICE_ADDRESS is the request's A (30_encoding R70; 42_session_ops R164). -/
theorem decodeRequest_setDeviceAddress {r : Request} {a : Byte}
    (h : decodeRequest r = .ok (.setDeviceAddress a)) : a = r.a := by
  unfold decodeRequest at h
  repeat' split at h
  all_goals cases h
  rfl

namespace Machine

/-! ## What a step runs -/

/-- A wire command's meaning is the sending of its packet (41_command_catalog R131 to R135). -/
theorem exec_of_wireInstr {p : Packet} {i : Instr} (h : wireInstr p = .ok i) (s : State) :
    exec i s = (sendFrame Config.params p s).finish := by
  obtain ⟨addr, cmd, off, payload⟩ := p
  unfold wireInstr at h
  iterate 5
    split at h
    · rename_i hc
      cases h
      simp only at hc
      subst hc
      rfl
  cases h

/-- In TX a step either sends a packet or is refused (42_session_ops R154; log entry 15). -/
theorem runOutgoing_next {s t : State} (h : runOutgoing s = .next t) :
    ∃ p, (sendFrame Config.params p s).finish = .next t := by
  unfold runOutgoing State.outgoing at h
  split at h
  · rename_i i hi
    split at hi
    · rename_i hd
      cases hi
      obtain ⟨p, hp⟩ := decodeWire_ok hd
      exact ⟨p, exec_of_wireInstr hp s ▸ h⟩
    · cases hi
  · cases h

/-- Where TXBUF holds the frame of a catalogued packet, TX sends that packet. -/
theorem runOutgoing_eq {s : State} {p : Packet} (hk : known p.cmd = true)
    (hp : p.payload.length ≤ maxPayload) (hf : s.txFrame = encodePacket p) :
    runOutgoing s = (sendFrame Config.params p s).finish := by
  obtain ⟨i, hi⟩ := wireInstr_of_known p hk
  simp only [runOutgoing, State.outgoing, hf, decodeWire_encodePacket p hp hi]
  exact exec_of_wireInstr hi s

/-- The operation in REQ is what the decoder reads there. -/
theorem requested_ok {s : State} {i : Instr} :
    s.requested = .ok i ↔ decodeRequest s.req = .ok i := by
  unfold State.requested
  split <;> rename_i h <;> simp [h]

/-- Running a request ends with its RequestError or runs the operation it names (42_session_ops R150). -/
theorem runRequest_next {s t : State} (h : runRequest s = .next t) :
    (∃ e, t = s.respond (Response.error e)) ∨ ∃ i, s.requested = .ok i ∧ exec i s = .next t := by
  unfold runRequest at h
  split at h
  · rename_i i hi
    exact .inr ⟨i, hi, h⟩
  · rename_i e _
    exact .inl ⟨e, by simpa using h.symm⟩

/-- Everything the block's step can do: nothing, with no request offered in READY; the request it accepts
there; the frame in TX; the operation in REQ in the other phases (42_session_ops R165, R166). -/
theorem blockStep_next {s t : State} (h : blockStep s = .next t) :
    (s.phase = .ready ∧ t = s)
    ∨ (∃ r rest, s.phase = .ready ∧ takeRequest s.hostIn = some (r, rest)
        ∧ runRequest (s.latch r rest) = .next t)
    ∨ (s.phase = .tx ∧ runOutgoing s = .next t)
    ∨ (s.phase ≠ .ready ∧ s.phase ≠ .tx ∧ runRequest s = .next t) := by
  unfold blockStep at h
  split at h
  case h_1 hs =>
    split at h
    · exact .inl ⟨hs, by simpa using h.symm⟩
    · rename_i r rest hr
      exact .inr (.inl ⟨r, rest, hs, hr, h⟩)
  case h_2 hs => exact .inr (.inr (.inl ⟨hs, h⟩))
  all_goals
    rename_i hs
    exact .inr (.inr (.inr ⟨by simp [hs], by simp [hs], h⟩))

/-- Everything a step can do: a platform reset, or the block's step with the platform's entry read off
(70_reset R260). -/
theorem step_next {s t : State} (h : step s = .next t) :
    (∃ l m ps, s.platform = .reset l m :: ps ∧ t = State.applyReset { s with platform := ps } l m)
    ∨ ∃ ps, blockStep { s with platform := ps } = .next t := by
  unfold step at h
  split at h
  · rename_i hp
    refine .inr ⟨[], ?_⟩
    rw [← hp]
    exact h
  · rename_i ps _
    exact .inr ⟨ps, h⟩
  · rename_i l m ps hp
    exact .inl ⟨l, m, ps, hp, by simpa using h.symm⟩

/-- SEND runs through only in TX, where the TxWrite completed (42_session_ops R152, R154). -/
theorem send_run {p : Packet} {s t : State} {u : Unit} (h : send p s = .run u t) :
    s.phase = .tx ∧ ∃ as, t = s.written p as := by
  unfold send at h
  split at h
  · split at h
    · rename_i hs
      rcases sendWrite_cases p s with
        ⟨as, _, hw⟩ | ⟨k, as, _, hw⟩ | ⟨as, _, hw⟩ | ⟨_, hw⟩ <;> rw [hw] at h <;> cases h
      exact ⟨hs, as, rfl⟩
    · cases h
  · cases h

/-! ## The invariant -/

theorem State.inv_iff (s : State) : s.inv = true ↔ s.buffersOk = true ∧ s.phaseOk = true := by
  simp [State.inv]

/-- In READY the invariant asks for the buffers alone. -/
theorem State.inv_of_ready {s : State} (hs : s.phase = .ready) (hb : s.buffersOk = true) :
    s.inv = true := by
  rw [State.inv_iff]
  exact ⟨hb, by simp [State.phaseOk, hs]⟩

theorem State.buffersOk_iff (s : State) :
    s.buffersOk = true ↔ s.txbuf.wf = true ∧ s.txbuf.below txbufSize = true
      ∧ s.rxpay.wf = true ∧ s.rxpay.below rxpaySize = true := by
  simp [State.buffersOk, and_assoc]

/-- A frame that fits TXBUF leaves both buffers in order (20_memory R41). -/
theorem State.loadTx_buffersOk {s : State} {f : List Byte} (hb : s.buffersOk = true)
    (hf : f.length ≤ txbufSize) : (s.loadTx f).buffersOk = true := by
  obtain ⟨hw, hl, hrw, hrl⟩ := (State.buffersOk_iff s).mp hb
  rw [State.buffersOk_iff]
  exact ⟨Memory.writeBytes_wf _ _ _ hw, Memory.writeBytes_below _ _ _ _ hl (by omega), hrw, hrl⟩

/-- A payload of at most DECL_LEN bytes leaves RXPAY in order (20_memory R42). -/
theorem rxpay_writeBytes_buffersOk {s : State} {bs : List Byte} (n : Half)
    (hb : s.buffersOk = true) (hn : bs.length ≤ n.toNat) :
    ({ s with rxpay := s.rxpay.writeBytes 0 bs } : State).buffersOk = true := by
  obtain ⟨hw, hl, hrw, hrl⟩ := (State.buffersOk_iff s).mp hb
  have hlen := n.isLt
  rw [State.buffersOk_iff]
  refine ⟨hw, hl, Memory.writeBytes_wf _ _ _ hrw, Memory.writeBytes_below _ _ _ _ hrl ?_⟩
  unfold rxpaySize
  omega

/-- The frame just put in TXBUF is the frame read back from it, its length taken from its own bytes 8
and 9 (20_memory R41). -/
theorem State.loadTx_txFrame (s : State) (p : Packet) (hp : p.payload.length ≤ maxPayload) :
    (s.loadTx (encodePacket p)).txFrame = encodePacket p := by
  have hlen : (le16 ((s.loadTx (encodePacket p)).txbuf.read 8)
      ((s.loadTx (encodePacket p)).txbuf.read 9)).toNat = p.payload.length := by
    simp [Memory.read_writeBytes, encodePacket_eq, length_field _ hp]
  rw [State.txFrame, hlen, ← encodePacket_length, State.loadTx_txbuf, Memory.readBytes_writeBytes]

/-- What a procedure leaves for the invariant: the buffers in order where it ran through or raised an
error, the whole invariant where it waits. -/
def Flow.settled {α : Type} : Flow α → Prop
  | .run _ s => s.buffersOk = true
  | .wait s => s.inv = true
  | .err _ s => s.buffersOk = true
  | .stop _ => True

theorem Flow.settled_bind {α β : Type} {x : Flow α} {f : α → State → Flow β} (hx : x.settled)
    (hf : ∀ a s, x = .run a s → s.buffersOk = true → (f a s).settled) : (x.bind f).settled := by
  cases x with
  | run a s => exact hf a s rfl hx
  | wait s => exact hx
  | err e s => exact hx
  | stop g => trivial

/-- An operation that ends in a settled way has the invariant: its response leaves READY. -/
theorem Flow.settled_finish {x : Flow Result} {t : State} (hx : x.settled)
    (h : x.finish = .next t) : t.inv = true := by
  rcases Flow.finish_next h with ⟨r, s, rfl, rfl⟩ | rfl | ⟨e, s, rfl, rfl⟩
  · exact State.inv_of_ready rfl hx
  · exact hx
  · exact State.inv_of_ready rfl hx

/-- The decoders touch no buffer and wait for nothing (43_payload_decoders R207). -/
theorem interpretWith_settled (P : Params) (c : Byte) (a : Option Byte)
    (d : Packet → Except ErrorInfo Result) (p : Packet) {s : State} (hb : s.buffersOk = true) :
    (interpretWith P c a d p s).settled := by
  rcases interpretWith_cases P c a d p s with ⟨r, _, _, h⟩ | ⟨e, _, h⟩ <;> rw [h] <;> exact hb

/-! ### SEND -/

theorem sendWrite_settled (p : Packet) {s : State} (hs : s.inv = true) :
    (sendWrite p s).settled := by
  have hb := ((State.inv_iff s).mp hs).1
  rcases sendWrite_cases p s with
    ⟨as, _, h⟩ | ⟨k, as, _, h⟩ | ⟨as, _, h⟩ | ⟨_, h⟩ <;> rw [h]
  · exact hb
  · exact hb
  · exact hs
  · exact hs

/-- With its frame in TXBUF and its TxWrite issued, the packet due stands as the invariant asks in TX. -/
theorem State.loadTx_inv {s : State} {p : Packet} (hb : s.buffersOk = true)
    (hdue : s.packetDue = some p) (hk : known p.cmd = true) (hl : sendLegal s.mode p.cmd = true)
    (hp : p.payload.length ≤ maxPayload) : (s.loadTx (encodePacket p)).inv = true := by
  have hdue' : (s.loadTx (encodePacket p)).packetDue = some p := hdue
  have hlen : (encodePacket p).length ≤ txbufSize := by
    rw [encodePacket_length]
    unfold maxPayload at hp
    unfold txbufSize
    omega
  rw [State.inv_iff]
  refine ⟨State.loadTx_buffersOk hb hlen, ?_⟩
  simp [State.phaseOk, State.txOk, hdue', hk, hl, hp, State.loadTx_txFrame s p hp]

/-- Before TX, SEND of the packet due writes its frame and waits in TX. -/
theorem send_settled {s : State} {p : Packet} (hs : s.phase ≠ .tx) (hb : s.buffersOk = true)
    (hdue : s.packetDue = some p) (hk : known p.cmd = true)
    (hl : sendLegal s.mode p.cmd = true) : (send p s).settled := by
  by_cases hp : p.payload.length ≤ maxPayload
  · rw [send_eq p s hp, if_neg hs]
    exact State.loadTx_inv hb hdue hk hl hp
  · rw [send_stop p s (Nat.lt_of_not_le hp)]
    trivial

/-- The same, whatever would follow it: outside TX it does not run through. -/
theorem send_bind_settled {β : Type} {s : State} {p : Packet} (f : Unit → State → Flow β)
    (hs : s.phase ≠ .tx) (hb : s.buffersOk = true) (hdue : s.packetDue = some p)
    (hk : known p.cmd = true) (hl : sendLegal s.mode p.cmd = true) :
    ((send p s).bind f).settled :=
  Flow.settled_bind (send_settled hs hb hdue hk hl) fun _ _ h _ => absurd (send_run h).1 hs

/-! ### RECV -/

theorem State.headerOk_of_marker {s : State} (hm : s.hdr.marker = startMarker)
    (hn : s.declLen = s.hdr.declLen) : s.headerOk = true := by
  simp [State.headerOk, hm, hn]

/-- Past the header read the next read is the one DECL_LEN asks for (40_frame_codec R104). -/
theorem State.phaseOk_of_header {s : State}
    (hs : s.phase = if s.declLen = 0 then .rxChecksum else .rxPayload) (hr : s.rxOk = true)
    (hh : s.headerOk = true) : s.phaseOk = true := by
  by_cases hz : s.declLen = 0
  · simp [State.phaseOk, hs.trans (if_pos hz), hr, hh]
  · have hph : s.phase = .rxPayload := hs.trans (if_neg hz)
    simpa [State.phaseOk, hph, hr, hh] using hz

theorem recvHeader_settled {s : State} (hs : s.phase = .rxHeader) (hb : s.buffersOk = true)
    (hr : s.rxOk = true) : (recvHeader s).settled := by
  have hinv : s.inv = true := (State.inv_iff s).mpr ⟨hb, by simp [State.phaseOk, hs, hr]⟩
  rcases recvHeader_cases s with
    ⟨as, _, _, hm, h⟩ | ⟨as, _, _, _, h⟩ | ⟨as, _, _, h⟩ | ⟨k, as, _, h⟩ | ⟨as, _, h⟩ | ⟨_, h⟩ <;>
    rw [h]
  · exact (State.inv_iff _).mpr
      ⟨hb, State.phaseOk_of_header rfl hr (State.headerOk_of_marker hm rfl)⟩
  · exact hb
  · exact hinv
  · exact hb
  · exact hinv
  · exact hinv

theorem recvPayload_settled {s : State} (hs : s.phase = .rxPayload) (hi : s.inv = true) :
    (recvPayload s).settled := by
  obtain ⟨hb, hph⟩ := (State.inv_iff s).mp hi
  rcases recvPayload_cases s with
    ⟨as, _, _, h⟩ | ⟨as, _, _, h⟩ | ⟨k, as, _, h⟩ | ⟨as, _, h⟩ | ⟨_, h⟩ <;> rw [h]
  · refine (State.inv_iff _).mpr
      ⟨rxpay_writeBytes_buffersOk s.declLen hb (List.length_take_le _ _), ?_⟩
    simp only [State.phaseOk, hs, Bool.and_eq_true] at hph ⊢
    exact hph.1
  · exact hi
  · exact hb
  · exact hi
  · exact hi

theorem recvChecksum_settled {s : State} (hi : s.inv = true) : (recvChecksum s).settled := by
  have hb := ((State.inv_iff s).mp hi).1
  rcases recvChecksum_cases s with
    ⟨as, ck, rest, _, _, _, h⟩ | ⟨as, ck, rest, _, _, _, h⟩ | ⟨as, _, _, h⟩ | ⟨k, as, _, h⟩
      | ⟨as, _, h⟩ | ⟨_, h⟩ <;> rw [h]
  · exact hb
  · exact hb
  · exact hi
  · exact hb
  · exact hi
  · exact hi

/-- The operation in REQ may start, or goes on from a read whose phase is in order. -/
def State.resumable (s : State) : Prop := s.receiving = true → s.phaseOk = true

/-- A read outstanding in order is one of an operation that receives. -/
theorem State.resumable.rxOk {s : State} (h : s.resumable) (hr : s.receiving = true) :
    s.rxOk = true := by
  have hph := h hr
  cases hs : s.phase <;> simp_all [State.receiving, State.phaseOk]

/-- RECV of an operation that receives: the header read issued, or the answer to the one outstanding. -/
theorem recv_settled {s : State} (hb : s.buffersOk = true) (hr : s.rxOk = true)
    (h : s.resumable) : (recv s).settled := by
  have hinv (hrec : s.receiving = true) : s.inv = true := (State.inv_iff s).mpr ⟨hb, h hrec⟩
  have hissue : (s.setPhase .rxHeader).inv = true := (State.inv_iff _).mpr ⟨hb, hr⟩
  unfold recv
  cases hs : s.phase with
  | ready => exact hissue
  | check => exact hissue
  | tx => exact hissue
  | rxHeader => exact recvHeader_settled hs hb hr
  | rxPayload => exact recvPayload_settled hs (hinv (by simp [State.receiving, hs]))
  | rxChecksum => exact recvChecksum_settled (hinv (by simp [State.receiving, hs]))
  | interpret => exact hb

/-- RECV, then what the operation makes of the packet, which waits for nothing. -/
theorem recv_bind_settled {s : State} {f : Packet → State → Flow Result} (hb : s.buffersOk = true)
    (hr : s.rxOk = true) (h : s.resumable)
    (hf : ∀ p u, u.buffersOk = true → (f p u).settled) : ((recv s).bind f).settled :=
  Flow.settled_bind (recv_settled hb hr h) fun p u _ hu => hf p u hu

/-! ### The operations, started or resumed outside TX -/

/-- The mode check of an operation legal in one mode, then the rest of it in that mode. -/
theorem requireMode_bind_settled {β : Type} {m : Mode} {op : Byte} {s : State}
    {f : Unit → State → Flow β} (hb : s.buffersOk = true) (hf : s.mode = m → (f () s).settled) :
    ((requireMode m op s).bind f).settled := by
  rcases requireMode_cases m op s with ⟨hm, h⟩ | ⟨_, h⟩ <;> rw [h]
  · exact hf hm
  · exact hb

/-- An operation that only receives checks its mode at its start and has kept it where it resumes. -/
theorem receiver_settled {m : Mode} {op : Byte} {s : State} {f : Unit → State → Flow Result}
    (hb : s.buffersOk = true) (h : s.resumable) (hr : s.rxOk = (s.mode == m))
    (hf : s.rxOk = true → (f () s).settled) :
    ((if s.receiving then .run () s else requireMode m op s).bind f).settled := by
  split
  · exact hf (h.rxOk ‹_›)
  · exact requireMode_bind_settled hb fun hm => hf (by simp [hr, hm])

/-- An operation that sends and receives sends at its start and goes on receiving where it resumes. -/
theorem sender_receiver_settled {op : Byte} {s : State} {p : State → Packet}
    {f : Unit → State → Flow Result} (hb : s.buffersOk = true) (hs : s.phase ≠ .tx)
    (h : s.resumable) (hdue : s.packetDue = some (p s)) (hk : known (p s).cmd = true)
    (hf : s.rxOk = true → (f () s).settled) :
    ((if s.receiving then .run () s
      else (requireMode .idle op s).bind fun _ s => send (p s) s).bind f).settled := by
  split
  · exact hf (h.rxOk ‹_›)
  · rw [Flow.bind_assoc]
    exact requireMode_bind_settled hb fun hm =>
      send_bind_settled f hs hb hdue hk (by simp [hm, sendLegal])

/-- ISSUE's checks are those the invariant asks of the frame it sends (42_session_ops R150, R151). -/
theorem issueFlow_settled {cmd addr : Byte} {off : Half} {payload : List Byte} {s : State}
    (hb : s.buffersOk = true) (hs : s.phase ≠ .tx)
    (hdue : s.packetDue = some ⟨addr, cmd, off, payload⟩) :
    (issueFlow cmd addr off payload s).settled := by
  unfold issueFlow
  split
  · split
    · exact send_bind_settled _ hs hb hdue ‹_› ‹_›
    · exact hb
  · exact hb

/-- Outside TX, the operation in REQ, started or resumed, leaves the invariant. -/
theorem exec_keeps_inv {s t : State} {i : Instr} (hb : s.buffersOk = true) (hs : s.phase ≠ .tx)
    (h : s.resumable) (hi : s.requested = .ok i) (ht : exec i s = .next t) : t.inv = true := by
  have hhost := (decodeRequest_op (requested_ok.mp hi)).1
  have hdue : s.packetDue = s.packetSent i := by simp [State.packetDue, hi]
  cases i with
  | frameGetDistance | frameStop | frameAcknowledge | frameGetCorrectionCoefficients
  | frameConfigureAddress => cases hhost
  | issue cmd addr off payload => exact Flow.settled_finish (issueFlow_settled hb hs hdue) ht
  | awaitResponse =>
    refine Flow.settled_finish (x := awaitFlow s) ?_ ht
    exact receiver_settled hb h (by simp [State.rxOk, hi]) fun hr =>
      recv_bind_settled hb hr h fun _ _ hu => hu
  | configureAddress =>
    refine Flow.settled_finish (x := configureAddressFlow Config.params s) ?_ ht
    exact sender_receiver_settled hb hs h hdue rfl fun hr =>
      recv_bind_settled hb hr h fun _ _ hu => interpretWith_settled _ _ _ _ _ hu
  | getCoefficients =>
    refine Flow.settled_finish (x := getCoefficientsFlow Config.params s) ?_ ht
    exact sender_receiver_settled hb hs h hdue rfl fun hr =>
      recv_bind_settled hb hr h fun _ _ hu => interpretWith_settled _ _ _ _ _ hu
  | beginStream =>
    refine Flow.settled_finish (x := beginStreamFlow s) ?_ ht
    exact requireMode_bind_settled hb fun hm =>
      send_bind_settled _ hs hb hdue rfl (by simp [hm, sendLegal])
  | stopStream =>
    refine Flow.settled_finish (x := stopStreamFlow s) ?_ ht
    exact send_bind_settled _ hs hb hdue rfl (by cases s.mode <;> rfl)
  | receiveFrame expected =>
    refine Flow.settled_finish (x := receiveFrameFlow Config.params expected s) ?_ ht
    exact receiver_settled hb h (by simp [State.rxOk, hi]) fun hr =>
      recv_bind_settled hb hr h fun _ _ hu => interpretWith_settled _ _ _ _ _ hu
  | setDeviceAddress addr =>
    refine Flow.settled_finish (x := setDeviceAddressFlow addr s) ?_ ht
    exact requireMode_bind_settled hb fun _ => hb

theorem runRequest_keeps_inv {s t : State} (hb : s.buffersOk = true) (hs : s.phase ≠ .tx)
    (h : s.resumable) (ht : runRequest s = .next t) : t.inv = true := by
  rcases runRequest_next ht with ⟨e, rfl⟩ | ⟨i, hi, hx⟩
  · exact State.inv_of_ready rfl hb
  · exact exec_keeps_inv hb hs h hi hx

/-! ### TX -/

/-- What the invariant says in TX. -/
theorem State.txOk_iff (s : State) :
    s.txOk = true ↔ ∃ p, s.packetDue = some p ∧ known p.cmd = true
      ∧ sendLegal s.mode p.cmd = true ∧ p.payload.length ≤ maxPayload
      ∧ s.txFrame = encodePacket p := by
  unfold State.txOk
  cases s.packetDue <;> simp [and_assoc]

/-- A packet is due from the operation in REQ. -/
theorem State.packetDue_some {s : State} {p : Packet} (h : s.packetDue = some p) :
    ∃ i, s.requested = .ok i ∧ s.packetSent i = some p := by
  unfold State.packetDue at h
  split at h
  · exact ⟨_, ‹_›, h⟩
  · cases h

/-- A frame other than GetDistance and Stop leaves MODE (42_session_ops R152), so an operation that
needed Idle to send it is in Idle when it begins to receive. -/
theorem written_idle {s : State} {p : Packet} (as : List Answer) (h2 : p.cmd ≠ cmdGetDistance)
    (hf : p.cmd ≠ cmdStop) (hl : sendLegal s.mode p.cmd = true) : (s.written p as).mode = .idle := by
  have hm : (s.written p as).mode = s.mode := (if_neg h2).trans (if_neg hf)
  rw [hm]
  cases hmode : s.mode with
  | idle => rfl
  | streaming => simp [hmode, sendLegal, hf] at hl

/-- RECV after such a frame, for an operation that receives in Idle. -/
theorem recv_written_settled {s : State} {p : Packet} {as : List Answer}
    {f : Packet → State → Flow Result} (hs : s.phase = .tx) (hb : s.buffersOk = true)
    (h2 : p.cmd ≠ cmdGetDistance) (hf : p.cmd ≠ cmdStop) (hl : sendLegal s.mode p.cmd = true)
    (hr : (s.written p as).rxOk = ((s.written p as).mode == .idle))
    (hint : ∀ q u, u.buffersOk = true → (f q u).settled) :
    ((recv (s.written p as)).bind f).settled := by
  have hrx : (s.written p as).rxOk = true := by
    rw [hr, written_idle as h2 hf hl]
    rfl
  exact recv_bind_settled hb hrx (fun h => by simp [State.receiving, hs] at h) hint

/-- After its frame is written, the operation in REQ ends, or issues the header read in Idle
(42_session_ops R159, R160, R166). -/
theorem afterSend_settled (P : Params) {s : State} {p : Packet} (as : List Answer)
    (hs : s.phase = .tx) (hb : s.buffersOk = true) (hdue : s.packetDue = some p)
    (hl : sendLegal s.mode p.cmd = true) : (afterSend P (s.written p as)).settled := by
  obtain ⟨i, hi, hsent⟩ := State.packetDue_some hdue
  obtain ⟨hhost, hop⟩ := decodeRequest_op (requested_ok.mp hi)
  have hreq : (s.written p as).requested = .ok i := hi
  unfold afterSend
  rw [State.written_req, ← hop]
  cases i with
  | frameGetDistance | frameStop | frameAcknowledge | frameGetCorrectionCoefficients
  | frameConfigureAddress => cases hhost
  | awaitResponse | receiveFrame | setDeviceAddress => cases hsent
  | issue | beginStream | stopStream => exact hb
  | configureAddress =>
    have hcmd : p.cmd = cmdConfigureAddress := congrArg Packet.cmd (Option.some.inj hsent).symm
    exact recv_written_settled hs hb (by rw [hcmd]; decide) (by rw [hcmd]; decide) hl
      (by simp [State.rxOk, hreq]) fun _ _ hu => interpretWith_settled _ _ _ _ _ hu
  | getCoefficients =>
    have hcmd : p.cmd = cmdGetCorrectionCoefficients :=
      congrArg Packet.cmd (Option.some.inj hsent).symm
    exact recv_written_settled hs hb (by rw [hcmd]; decide) (by rw [hcmd]; decide) hl
      (by simp [State.rxOk, hreq]) fun _ _ hu => interpretWith_settled _ _ _ _ _ hu

/-- The wire command in TX is the send of the packet due, and leaves the invariant. -/
theorem runOutgoing_keeps_inv {s t : State} (hs : s.phase = .tx) (hi : s.inv = true)
    (ht : runOutgoing s = .next t) : t.inv = true := by
  obtain ⟨hb, hph⟩ := (State.inv_iff s).mp hi
  simp only [State.phaseOk, hs] at hph
  obtain ⟨p, hdue, hk, hl, hp, hf⟩ := (State.txOk_iff s).mp hph
  rw [runOutgoing_eq hk hp hf] at ht
  refine Flow.settled_finish ?_ ht
  unfold sendFrame
  rw [if_pos hl]
  have hsend : (send p s).settled := by
    rw [send_eq p s hp, if_pos hs]
    exact sendWrite_settled p hi
  refine Flow.settled_bind hsend fun _ u hu _ => ?_
  obtain ⟨_, as, rfl⟩ := send_run hu
  exact afterSend_settled _ as hs hb hdue hl

/-! ### Every step -/

theorem blockStep_keeps_inv {s t : State} (hi : s.inv = true) (ht : blockStep s = .next t) :
    t.inv = true := by
  obtain ⟨hb, hph⟩ := (State.inv_iff s).mp hi
  rcases blockStep_next ht with
    ⟨_, rfl⟩ | ⟨r, rest, _, _, hrun⟩ | ⟨hs, hrun⟩ | ⟨_, hs, hrun⟩
  · exact hi
  · exact runRequest_keeps_inv (s := s.latch r rest) hb (by simp) (fun h => by cases h) hrun
  · exact runOutgoing_keeps_inv hs hi hrun
  · exact runRequest_keeps_inv hb hs (fun _ => hph) hrun

/-- A reset leaves READY and empty buffers (70_reset R260). -/
theorem applyReset_inv (s : State) (l : Bool) (m : Nat) : (s.applyReset l m).inv = true := by
  unfold State.applyReset
  split <;> rfl

/-- Settles O55: a step is a reset, the frame in TX, or a request started or resumed, and each of them
leaves the buffers in order and, where it waits, the phase it waits in. -/
theorem stepKeepsInvariant : Obligations.StepKeepsInvariant := by
  intro s t hi ht
  rcases step_next ht with ⟨l, m, ps, _, rfl⟩ | ⟨ps, hb⟩
  · exact applyReset_inv _ l m
  · exact blockStep_keeps_inv (s := { s with platform := ps }) hi hb

/-! ## The writes to MODE and DEV_ADDR -/

/-- MODE is as it was, or a whole GetDistance or Stop frame is what the link has grown by (42_session_ops
R152). -/
def State.modeWritten (s t : State) : Prop :=
  t.mode = s.mode ∨ ∃ p : Packet, t.link = s.link ++ encodePacket p
    ∧ ((p.cmd = 0x02 ∧ t.mode = .streaming) ∨ (p.cmd = 0x0F ∧ t.mode = .idle))

/-- What every operation but SET_DEVICE_ADDRESS does to the session registers: DEV_ADDR stays, and MODE
follows the frames written (10_state R21, R22). -/
def State.sessionKept (s t : State) : Prop := t.devAddr = s.devAddr ∧ s.modeWritten t

theorem State.sessionKept_refl (s : State) : s.sessionKept s := ⟨rfl, .inl rfl⟩

/-- What leaves MODE, DEV_ADDR and the link alone keeps `sessionKept`. -/
theorem State.sessionKept.congr {s t u : State} (h : s.sessionKept t) (hm : u.mode = t.mode)
    (ha : u.devAddr = t.devAddr) (hl : u.link = t.link) : s.sessionKept u := by
  unfold State.sessionKept State.modeWritten
  rw [hm, ha, hl]
  exact h

theorem send_sessionKept (p : Packet) (s : State) : (send p s).all s.sessionKept := by
  refine Flow.all_imp _ (send_kept p s) fun t h => ?_
  obtain ⟨_, ha, _, _, _, _, _, _, _, _, _, _, hissue, hanswer⟩ := h
  refine ⟨ha, ?_⟩
  by_cases hs : s.phase = .tx
  · obtain ⟨_, _, _, hm | ⟨hm, hlink⟩⟩ := hanswer hs
    · exact .inl hm
    · exact .inr ⟨p, hlink, hm⟩
  · obtain ⟨_, _, _, hm⟩ := hissue hs
    exact .inl hm

/-- A procedure, then another that keeps what the first one kept. -/
theorem all_sessionKept_bind {α β : Type} {s : State} {x : Flow α} {f : α → State → Flow β}
    (hx : x.all s.sessionKept)
    (hf : ∀ a u, s.sessionKept u → (f a u).all s.sessionKept) : (x.bind f).all s.sessionKept :=
  Flow.all_bind x f hx (fun _ h => h) hf

/-- The mode check changes nothing, so what follows it starts from the same state. -/
theorem requireMode_bind_sessionKept {β : Type} (m : Mode) (op : Byte) {s : State}
    {f : Unit → State → Flow β} (hf : (f () s).all s.sessionKept) :
    ((requireMode m op s).bind f).all s.sessionKept := by
  rcases requireMode_cases m op s with ⟨_, h⟩ | ⟨_, h⟩ <;> rw [h]
  · exact hf
  · exact s.sessionKept_refl

theorem requireMode_sessionKept (m : Mode) (op : Byte) (s : State) :
    (requireMode m op s).all s.sessionKept := by
  rcases requireMode_cases m op s with ⟨_, h⟩ | ⟨_, h⟩ <;> rw [h] <;> exact s.sessionKept_refl

/-- RECV and the interpretation of its packet touch neither MODE nor DEV_ADDR nor the link. -/
theorem recv_bind_sessionKept {s u : State} {f : Packet → State → Flow Result}
    (h : s.sessionKept u) (hf : ∀ p v, (f p v).all fun w => w = v) :
    ((recv u).bind f).all s.sessionKept := by
  refine all_sessionKept_bind (Flow.all_imp _ (recv_kept u) fun v hv => ?_) fun p v hv =>
    Flow.all_imp _ (hf p v) fun w hw => hw ▸ hv
  obtain ⟨hm, ha, _, _, _, _, _, hl, _⟩ := hv
  exact h.congr hm ha hl

theorem afterSend_sessionKept (P : Params) {s u : State} (h : s.sessionKept u) :
    (afterSend P u).all s.sessionKept := by
  unfold afterSend
  split
  · exact recv_bind_sessionKept h fun _ _ => interpretWith_kept _ _ _ _ _ _
  split
  · exact recv_bind_sessionKept h fun _ _ => interpretWith_kept _ _ _ _ _ _
  · exact h

theorem sendFrame_sessionKept (P : Params) (p : Packet) (s : State) :
    (sendFrame P p s).all s.sessionKept := by
  unfold sendFrame
  split
  · exact all_sessionKept_bind (send_sessionKept p s) fun _ _ h => afterSend_sessionKept P h
  · exact s.sessionKept_refl

/-- SEND as the end of an operation: what it kept is what the operation keeps. -/
theorem send_end_sessionKept (p : Packet) (s : State) :
    ((send p s).bind fun _ u => .run Result.empty u).all s.sessionKept :=
  all_sessionKept_bind (send_sessionKept p s) fun _ _ h => h

theorem issueFlow_sessionKept (cmd addr : Byte) (off : Half) (payload : List Byte) (s : State) :
    (issueFlow cmd addr off payload s).all s.sessionKept := by
  unfold issueFlow
  split
  · split
    · exact send_end_sessionKept _ s
    · exact s.sessionKept_refl
  · exact s.sessionKept_refl

/-- The beginning of an operation that receives, skipped where it resumes, then RECV. -/
theorem receiver_sessionKept {s : State} {x : Flow Unit} {f : Packet → State → Flow Result}
    (hx : x.all s.sessionKept) (hf : ∀ p v, (f p v).all fun w => w = v) :
    ((if s.receiving then .run () s else x).bind fun _ u => (recv u).bind f).all s.sessionKept := by
  refine all_sessionKept_bind ?_ fun _ _ h => recv_bind_sessionKept h hf
  split
  · exact s.sessionKept_refl
  · exact hx

/-- A response touches neither register nor the link. -/
theorem finish_sessionKept {x : Flow Result} {s t : State} (hx : x.all s.sessionKept)
    (h : x.finish = .next t) : s.sessionKept t :=
  Flow.all_finish hx (fun _ _ h => h.congr rfl rfl rfl) h

/-- SET_DEVICE_ADDRESS writes its operand or is refused; it leaves MODE (42_session_ops R164). -/
theorem execSetDeviceAddress_session {a : Byte} {s t : State}
    (h : execSetDeviceAddress a s = .next t) :
    t.mode = s.mode ∧ (t.devAddr = s.devAddr ∨ t.devAddr = a) := by
  unfold execSetDeviceAddress setDeviceAddressFlow at h
  rcases requireMode_cases .idle 0x07 s with ⟨_, hm⟩ | ⟨_, hm⟩ <;> rw [hm] at h <;> cases h
  · exact ⟨rfl, .inr rfl⟩
  · exact ⟨rfl, .inl rfl⟩

/-- What an instruction does to MODE and DEV_ADDR: only SET_DEVICE_ADDRESS writes the latter. -/
theorem exec_session {i : Instr} {s t : State} (h : exec i s = .next t) :
    s.modeWritten t ∧ (t.devAddr = s.devAddr ∨ i = .setDeviceAddress t.devAddr) := by
  have of_kept (hk : s.sessionKept t) :
      s.modeWritten t ∧ (t.devAddr = s.devAddr ∨ i = .setDeviceAddress t.devAddr) :=
    ⟨hk.2, .inl hk.1⟩
  cases i with
  | frameGetDistance | frameStop | frameAcknowledge | frameGetCorrectionCoefficients
  | frameConfigureAddress =>
    exact of_kept (finish_sessionKept (sendFrame_sessionKept _ _ s) h)
  | issue => exact of_kept (finish_sessionKept (issueFlow_sessionKept _ _ _ _ s) h)
  | awaitResponse =>
    refine of_kept (finish_sessionKept
      (receiver_sessionKept (requireMode_sessionKept _ _ s) fun _ _ => ?_) h)
    rfl
  | configureAddress =>
    exact of_kept (finish_sessionKept
      (receiver_sessionKept (requireMode_bind_sessionKept _ _ (send_sessionKept _ s))
        fun _ _ => interpretWith_kept _ _ _ _ _ _) h)
  | getCoefficients =>
    exact of_kept (finish_sessionKept
      (receiver_sessionKept (requireMode_bind_sessionKept _ _ (send_sessionKept _ s))
        fun _ _ => interpretWith_kept _ _ _ _ _ _) h)
  | beginStream =>
    exact of_kept (finish_sessionKept
      (requireMode_bind_sessionKept _ _ (send_end_sessionKept _ s)) h)
  | stopStream => exact of_kept (finish_sessionKept (send_end_sessionKept _ s) h)
  | receiveFrame =>
    exact of_kept (finish_sessionKept
      (receiver_sessionKept (requireMode_sessionKept _ _ s)
        fun _ _ => interpretWith_kept _ _ _ _ _ _) h)
  | setDeviceAddress a =>
    obtain ⟨hm, ha | rfl⟩ := execSetDeviceAddress_session h
    · exact ⟨.inl hm, .inl ha⟩
    · exact ⟨.inl hm, .inr rfl⟩

/-- What a request does to MODE and DEV_ADDR: only one with OP 0x07 writes the latter, with its A. -/
theorem runRequest_session {s t : State} (h : runRequest s = .next t) :
    s.modeWritten t ∧ (t.devAddr = s.devAddr ∨ (s.req.op = 0x07 ∧ t.devAddr = s.req.a)) := by
  rcases runRequest_next h with ⟨e, rfl⟩ | ⟨i, hi, hx⟩
  · exact ⟨.inl rfl, .inl rfl⟩
  · obtain ⟨hm, ha | rfl⟩ := exec_session hx
    · exact ⟨hm, .inl ha⟩
    · have hd := requested_ok.mp hi
      exact ⟨hm, .inr ⟨(decodeRequest_op hd).2.symm, decodeRequest_setDeviceAddress hd⟩⟩

theorem runOutgoing_sessionKept {s t : State} (h : runOutgoing s = .next t) : s.sessionKept t := by
  obtain ⟨p, hp⟩ := runOutgoing_next h
  exact finish_sessionKept (sendFrame_sessionKept _ p s) hp

/-- The request a step runs: the one it accepts in READY, else the one in progress (42_session_ops
R165). -/
def State.requestRun (s : State) (r : Request) : Prop :=
  ∃ rest, (s.phase = .ready ∧ takeRequest s.hostIn = some (r, rest)) ∨ (s.phase ≠ .ready ∧ r = s.req)

/-- What the block's step does to MODE and DEV_ADDR. -/
theorem blockStep_session {s t : State} (h : blockStep s = .next t) :
    s.modeWritten t
      ∧ (t.devAddr = s.devAddr ∨ ∃ r, s.requestRun r ∧ r.op = 0x07 ∧ t.devAddr = r.a) := by
  rcases blockStep_next h with
    ⟨_, rfl⟩ | ⟨r, rest, hs, hr, hrun⟩ | ⟨_, hrun⟩ | ⟨hs, _, hrun⟩
  · exact ⟨.inl rfl, .inl rfl⟩
  · obtain ⟨hm, ha⟩ := runRequest_session hrun
    exact ⟨hm, ha.imp_right fun ⟨hop, ha⟩ => ⟨r, ⟨rest, .inl ⟨hs, hr⟩⟩, hop, ha⟩⟩
  · obtain ⟨ha, hm⟩ := runOutgoing_sessionKept hrun
    exact ⟨hm, .inl ha⟩
  · obtain ⟨hm, ha⟩ := runRequest_session hrun
    exact ⟨hm, ha.imp_right fun ⟨hop, ha⟩ => ⟨s.req, ⟨[], .inr ⟨hs, rfl⟩⟩, hop, ha⟩⟩

/-- What a step that is not a reset does to MODE and DEV_ADDR. -/
theorem step_session {s t : State} (hp : ∀ l m ps, s.platform ≠ .reset l m :: ps)
    (h : step s = .next t) :
    s.modeWritten t
      ∧ (t.devAddr = s.devAddr ∨ ∃ r, s.requestRun r ∧ r.op = 0x07 ∧ t.devAddr = r.a) := by
  rcases step_next h with ⟨l, m, ps, hr, _⟩ | ⟨ps, hb⟩
  · exact absurd hr (hp l m ps)
  · exact blockStep_session (s := { s with platform := ps }) hb

/-- Settles O57: of all that a step runs only a completed TxWrite of a GetDistance or Stop frame writes
MODE. -/
theorem modeChangesOnlyAfterAWrite : Obligations.ModeChangesOnlyAfterAWrite := by
  intro s t hp h hne
  exact (step_session hp h).1.resolve_left hne

/-- Settles O58: of all that a step runs only the request named SET_DEVICE_ADDRESS writes DEV_ADDR. -/
theorem onlySetDeviceAddressWritesDevAddr : Obligations.OnlySetDeviceAddressWritesDevAddr := by
  intro s t hp h
  refine (step_session hp h).2.imp_right fun ⟨r, ⟨rest, hrun⟩, hop, ha⟩ => ?_
  exact ⟨r, rest, hrun, hop, ha⟩

end Machine

end Sys2Proof

/-! # The family 20_memory: the ports

First everything one step of an instruction can do, said once for all thirteen. Then the write that does
not complete (O14), the frame too long for TXBUF (O15), and the ports, which only move forward (O59). -/

namespace Sys2Proof.Machine

/-! ## What an instruction's step is -/

/-- What an operation makes of the packet it received leaves the state alone (43_payload_decoders R207). -/
def PureOnState (g : Packet → State → Flow Result) : Prop :=
  ∀ p u, (g p u).all fun v => v = u

/-- What an operation does once its frame is written: it ends, or it goes on to RECV (42_session_ops
R166). -/
def EndsOrReceives (f : Unit → State → Flow Result) : Prop :=
  ∀ u, f () u = .run .empty u ∨ ∃ g, PureOnState g ∧ f () u = (recv u).bind g

/-- The forms the step of an instruction takes. -/
inductive OpStep (s : State) (i : Instr) : Flow Result → Prop where
  /-- A check fails: the mode's, or ISSUE's of its command (42_session_ops R150, R151). -/
  | refused (e : ErrorInfo)
      (why : modeAllows s.mode i = false ∨ ∃ p, s.packetSent i = some p ∧ known p.cmd = false) :
      OpStep s i (.err e s)
  /-- SEND, and what the operation does after it (42_session_ops R154). -/
  | sends (p : Packet) (f : Unit → State → Flow Result) (hp : s.packetSent i = some p)
      (hf : EndsOrReceives f) : OpStep s i ((send p s).bind f)
  /-- RECV, of an operation that does not send or is past its SEND (42_session_ops R155). -/
  | receives (g : Packet → State → Flow Result)
      (hs : s.packetSent i = none ∨ s.receiving = true) (hg : PureOnState g) :
      OpStep s i ((recv s).bind g)
  /-- SET_DEVICE_ADDRESS's write (42_session_ops R164). -/
  | setsAddress (a : Byte) (hi : i = .setDeviceAddress a) : OpStep s i (.run .empty (s.setDevAddr a))

theorem interpretWith_pureOnState (P : Params) (c : Byte) (a : State → Option Byte)
    (d : Packet → Except ErrorInfo Result) :
    PureOnState fun p u => interpretWith P c (a u) d p u :=
  fun p u => interpretWith_kept P c (a u) d p u

theorem endsOrReceives_empty : EndsOrReceives fun _ u => .run .empty u :=
  fun _ => .inl rfl

theorem endsOrReceives_recv {g : Packet → State → Flow Result} (hg : PureOnState g) :
    EndsOrReceives fun _ u => (recv u).bind g :=
  fun _ => .inr ⟨g, hg, rfl⟩

theorem afterSend_endsOrReceives (P : Params) : EndsOrReceives fun _ u => afterSend P u := by
  intro u
  show afterSend P u = _ ∨ ∃ g, PureOnState g ∧ afterSend P u = _
  unfold afterSend
  split
  · exact .inr ⟨_, interpretWith_pureOnState P _ (fun _ => none) _, rfl⟩
  split
  · exact .inr ⟨_, interpretWith_pureOnState P _ (fun u => some u.devAddr) _, rfl⟩
  · exact .inl rfl

/-- For an instruction that sends, the mode table is the rule on the packet's command (42_session_ops
R151). -/
theorem modeAllows_eq_sendLegal {s : State} {i : Instr} {p : Packet} (h : s.packetSent i = some p)
    (m : Mode) : modeAllows m i = sendLegal m p.cmd := by
  cases i with
  | awaitResponse | receiveFrame | setDeviceAddress => cases h
  | issue | frameGetDistance | frameStop | frameAcknowledge | frameGetCorrectionCoefficients
  | frameConfigureAddress | configureAddress | getCoefficients | beginStream | stopStream =>
    cases h
    cases m <;> rfl

/-- The mode check of an instruction, then the rest of it in that mode. -/
theorem requireMode_bind_opStep {s : State} {i : Instr} {m : Mode} (op : Byte)
    {f : Unit → State → Flow Result} (hm : modeAllows s.mode i = (s.mode == m))
    (hf : OpStep s i (f () s)) : OpStep s i ((requireMode m op s).bind f) := by
  rcases requireMode_cases m op s with ⟨_, h⟩ | ⟨hne, h⟩ <;> rw [h]
  · exact hf
  · exact .refused _ (.inl (by simp [hm, hne]))

/-- A wire command is refused by mode or sends its packet (41_command_catalog, opening). -/
theorem sendFrame_opStep (P : Params) {s : State} {i : Instr} {p : Packet}
    (hp : s.packetSent i = some p) : OpStep s i (sendFrame P p s) := by
  unfold sendFrame
  split
  · exact .sends p _ hp (afterSend_endsOrReceives P)
  · rename_i hl
    exact .refused _ (.inl (by simpa [modeAllows_eq_sendLegal hp] using hl))

/-- ISSUE is refused by its command or by mode, or sends its packet (42_session_ops R157). -/
theorem issueFlow_opStep (cmd addr : Byte) (off : Half) (payload : List Byte) (s : State) :
    OpStep s (.issue cmd addr off payload) (issueFlow cmd addr off payload s) := by
  have hp : s.packetSent (.issue cmd addr off payload) = some ⟨addr, cmd, off, payload⟩ := rfl
  unfold issueFlow
  split
  · split
    · exact .sends _ _ hp endsOrReceives_empty
    · rename_i hl
      exact .refused _ (.inl (by simpa [modeAllows_eq_sendLegal hp] using hl))
  · rename_i hk
    exact .refused _ (.inr ⟨_, hp, by simpa using hk⟩)

/-- An operation that only receives (42_session_ops R158, R163). -/
theorem receiver_opStep {s : State} {i : Instr} {m : Mode} (op : Byte)
    {g : Packet → State → Flow Result} (hm : modeAllows s.mode i = (s.mode == m))
    (hp : s.packetSent i = none) (hg : PureOnState g) :
    OpStep s i ((if s.receiving then .run () s else requireMode m op s).bind
      fun _ u => (recv u).bind g) := by
  split
  · exact .receives g (.inl hp) hg
  · exact requireMode_bind_opStep op hm (.receives g (.inl hp) hg)

/-- An operation that sends and then receives (42_session_ops R159, R160). -/
theorem sender_receiver_opStep {s : State} {i : Instr} {p : State → Packet} (op : Byte)
    {g : Packet → State → Flow Result} (hm : modeAllows s.mode i = (s.mode == .idle))
    (hp : s.packetSent i = some (p s)) (hg : PureOnState g) :
    OpStep s i ((if s.receiving then .run () s
      else (requireMode .idle op s).bind fun _ u => send (p u) u).bind fun _ u => (recv u).bind g) := by
  split
  · exact .receives g (.inr ‹_›) hg
  · rw [Flow.bind_assoc]
    exact requireMode_bind_opStep op hm (.sends _ _ hp (endsOrReceives_recv hg))

/-- Everything one step of an instruction can do. -/
theorem exec_opStep (i : Instr) (s : State) : ∃ x, OpStep s i x ∧ exec i s = x.finish := by
  cases i with
  | frameGetDistance | frameStop | frameAcknowledge | frameGetCorrectionCoefficients
  | frameConfigureAddress => exact ⟨_, sendFrame_opStep Config.params rfl, rfl⟩
  | issue => exact ⟨_, issueFlow_opStep _ _ _ _ s, rfl⟩
  | awaitResponse =>
    exact ⟨_, receiver_opStep (g := fun p u => .run (packetResult p) u) _ rfl rfl
      fun _ _ => rfl, rfl⟩
  | configureAddress =>
    exact ⟨_, sender_receiver_opStep (p := fun _ => _) _ rfl rfl
      (interpretWith_pureOnState _ _ (fun _ => none) _), rfl⟩
  | getCoefficients =>
    exact ⟨_, sender_receiver_opStep (p := fun u => ⟨u.devAddr, _, 0, []⟩) _ rfl rfl
      (interpretWith_pureOnState _ _ (fun u => some u.devAddr) _), rfl⟩
  | beginStream =>
    exact ⟨_, requireMode_bind_opStep _ rfl (.sends _ _ rfl endsOrReceives_empty), rfl⟩
  | stopStream => exact ⟨_, .sends _ _ rfl endsOrReceives_empty, rfl⟩
  | receiveFrame =>
    exact ⟨_, receiver_opStep _ rfl rfl
      (interpretWith_pureOnState _ _ (fun u => some u.devAddr) _), rfl⟩
  | setDeviceAddress a =>
    exact ⟨_, requireMode_bind_opStep (s := s) _ rfl (.setsAddress a rfl), rfl⟩

/-- An instruction whose checks pass and that is not past its SEND makes its SEND. -/
theorem exec_sends {s : State} {i : Instr} {p : Packet} (hp : s.packetSent i = some p)
    (hk : known p.cmd = true) (hm : modeAllows s.mode i = true) (hr : s.receiving = false) :
    ∃ f, exec i s = ((send p s).bind f).finish := by
  obtain ⟨x, hx, hexec⟩ := exec_opStep i s
  rw [hexec]
  cases hx with
  | refused e why => simp [hp, hk, hm] at why
  | sends q f hq hf =>
    obtain rfl : q = p := Option.some.inj (hq.symm.trans hp)
    exact ⟨f, rfl⟩
  | receives g hs hg => simp [hp, hr] at hs
  | setsAddress a hi =>
    subst hi
    cases hp

/-! ## The write that does not complete -/

theorem sendWrite_fail {s : State} {k : Nat} {as : List Answer} (p : Packet)
    (ha : s.answers = .fail k :: as) :
    sendWrite p s = .err (.transport .tx)
      { s with answers := as, link := s.link ++ (encodePacket p).take k } := by
  simp [sendWrite, txWrite, ha]

theorem sendWrite_silent {s : State} {as : List Answer} (p : Packet)
    (ha : s.answers = .silent :: as) : sendWrite p s = .wait { s with answers := as } := by
  simp [sendWrite, txWrite, ha]

theorem sendWrite_unanswered {s : State} (p : Packet) (ha : s.answers = []) :
    sendWrite p s = .wait s := by
  simp [sendWrite, txWrite, ha]

/-- Settles O14: the step of a sending instruction is its SEND, and a SEND that waits or fails ends the
step whatever would follow it. -/
theorem unfinishedWrite : Obligations.UnfinishedWrite := by
  intro s i p hp hk hlen hm hr frame
  obtain ⟨f, hexec⟩ := exec_sends hp hk hm hr
  rw [hexec, send_eq p s hlen]
  refine ⟨fun hs => ?_, fun k as hs ha => ?_, fun as hs ha => ?_, fun hs ha => ?_⟩
  · rw [if_neg hs]
    rfl
  · rw [if_pos hs, sendWrite_fail p ha]
    rfl
  · rw [if_pos hs, sendWrite_silent p ha]
    rfl
  · rw [if_pos hs, sendWrite_unanswered p ha]
    rfl

/-- Settles O15: the step of a sending instruction is its SEND, which stops where the frame does not fit
TXBUF. -/
theorem oversizedFrameStops : Obligations.OversizedFrameStops := by
  intro s i p hp hk hm hr hlen
  obtain ⟨f, hexec⟩ := exec_sends hp hk hm hr
  rw [hexec, send_stop p s hlen]
  rfl

/-! ## The ports -/

/-- The two input ports are read from their front, the two outputs written at their end, and at most one
answer is taken (20_memory R40, R46, R47, R49). -/
def State.portsForward (s t : State) : Prop :=
  (∃ k, t.rxStream = s.rxStream.drop k)
  ∧ (∃ bs, t.link = s.link ++ bs)
  ∧ (∃ rs, t.hostOut = s.hostOut ++ rs)
  ∧ (∃ k, t.hostIn = s.hostIn.drop k)
  ∧ (∃ k ≤ 1, t.answers = s.answers.drop k)

/-- What leaves all five ports alone moves none backward. -/
theorem State.portsForward_of_eq {s t : State} (hrx : t.rxStream = s.rxStream)
    (hl : t.link = s.link) (ho : t.hostOut = s.hostOut) (hi : t.hostIn = s.hostIn)
    (ha : t.answers = s.answers) : s.portsForward t :=
  ⟨⟨0, hrx⟩, ⟨[], by simpa using hl⟩, ⟨[], by simpa using ho⟩, ⟨0, hi⟩, ⟨0, Nat.zero_le 1, ha⟩⟩

theorem State.portsForward_refl (s : State) : s.portsForward s :=
  State.portsForward_of_eq rfl rfl rfl rfl rfl

theorem State.portsForward.respond {s t : State} (h : s.portsForward t) (r : Response) :
    s.portsForward (t.respond r) := by
  obtain ⟨hrx, hl, ⟨rs, ho⟩, hi, ha⟩ := h
  exact ⟨hrx, hl, ⟨rs ++ [r], by simp [ho]⟩, hi, ha⟩

/-- A request is taken off the front of the host port (30_encoding R70, R72). -/
theorem takeRequest_drop {bs rest : List Byte} {r : Request}
    (h : takeRequest bs = some (r, rest)) : ∃ k, rest = bs.drop k := by
  unfold takeRequest at h
  split at h
  · rename_i op _ _ _ _ l0 l1 _ tail
    obtain ⟨_, h⟩ := Option.ite_none_right_eq_some.mp h
    cases h
    exact ⟨(if op = 0x00 then (le16 l0 l1).toNat else 0) + 8, rfl⟩
  · cases h

/-- What moves the ports forward after a request is accepted does so from before it (42_session_ops
R165). -/
theorem State.portsForward.of_latch {s t : State} {r : Request} {rest : List Byte}
    (hr : takeRequest s.hostIn = some (r, rest)) (h : (s.latch r rest).portsForward t) :
    s.portsForward t := by
  obtain ⟨hrx, hl, ho, ⟨k, hi⟩, ha⟩ := h
  obtain ⟨n, rfl⟩ := takeRequest_drop hr
  exact ⟨hrx, hl, ho, ⟨n + k, by simpa using hi⟩, ha⟩

/-! ### SEND and RECV -/

theorem State.sendKept.portsForward {p : Packet} {s t : State} (h : s.sendKept p t) :
    s.portsForward t := by
  obtain ⟨_, _, _, _, _, _, _, _, hrx, hi, ho, _, hissue, hanswer⟩ := h
  by_cases hs : s.phase = .tx
  · obtain ⟨_, hl, ha, _⟩ := hanswer hs
    exact ⟨⟨0, hrx⟩, hl, ⟨[], by simpa using ho⟩, ⟨0, hi⟩, ha⟩
  · obtain ⟨_, hl, ha, _⟩ := hissue hs
    exact State.portsForward_of_eq hrx hl ho hi ha

theorem State.recvKept.portsForward {s t : State} (h : s.recvKept t) : s.portsForward t := by
  obtain ⟨_, _, _, hi, ho, _, _, hl, hrx, ha, _⟩ := h
  exact ⟨hrx, ⟨[], by simpa using hl⟩, ⟨[], by simpa using ho⟩, ⟨0, hi⟩, ha⟩

theorem recv_portsForward (s : State) : (recv s).all s.portsForward :=
  Flow.all_imp _ (recv_kept s) fun _ h => h.portsForward

/-- Right after SEND, RECV issues the header read and takes no answer (00_scope R7; 42_session_ops
R155). -/
theorem recv_of_tx {s : State} (hs : s.phase = .tx) : recv s = .wait (s.setPhase .rxHeader) := by
  simp [recv, hs]

/-- After a SEND the rest of the operation moves no port: it ends, or waits for its first read. -/
theorem endsOrReceives_portsForward {s u : State} {f : Unit → State → Flow Result}
    (hf : EndsOrReceives f) (hu : u.phase = .tx) (h : s.portsForward u) :
    (f () u).all s.portsForward := by
  obtain hend | ⟨g, _, hrecv⟩ := hf u
  · rw [hend]
    exact h
  · rw [hrecv, recv_of_tx hu]
    exact h

/-! ### Every step -/

/-- However an instruction's step goes, it moves the ports forward: a step makes a SEND or a RECV, and
the RECV that follows a SEND only issues its read. -/
theorem OpStep.portsForward {s : State} {i : Instr} {x : Flow Result} (h : OpStep s i x) :
    x.all s.portsForward := by
  cases h with
  | refused e why => exact s.portsForward_refl
  | sends p f hp hf =>
    exact Flow.all_bind _ f (send_kept p s) (fun _ h => h.portsForward) fun _ u hu =>
      endsOrReceives_portsForward hf hu.1 hu.portsForward
  | receives g hs hg =>
    exact Flow.all_bind _ g (recv_portsForward s) (fun _ h => h) fun q u hu =>
      Flow.all_imp _ (hg q u) fun _ hv => hv ▸ hu
  | setsAddress a hi => exact State.portsForward_of_eq rfl rfl rfl rfl rfl

theorem exec_portsForward {i : Instr} {s t : State} (h : exec i s = .next t) : s.portsForward t := by
  obtain ⟨x, hx, hexec⟩ := exec_opStep i s
  exact Flow.all_finish hx.portsForward (fun _ r hu => hu.respond r) (hexec ▸ h)

theorem runRequest_portsForward {s t : State} (h : runRequest s = .next t) : s.portsForward t := by
  rcases runRequest_next h with ⟨e, rfl⟩ | ⟨i, _, hx⟩
  · exact s.portsForward_refl.respond _
  · exact exec_portsForward hx

theorem runOutgoing_portsForward {s t : State} (h : runOutgoing s = .next t) :
    s.portsForward t := by
  unfold runOutgoing at h
  split at h
  · exact exec_portsForward h
  · cases h

theorem blockStep_portsForward {s t : State} (h : blockStep s = .next t) : s.portsForward t := by
  rcases blockStep_next h with ⟨_, rfl⟩ | ⟨r, rest, _, hr, hrun⟩ | ⟨_, hrun⟩ | ⟨_, _, hrun⟩
  · exact t.portsForward_refl
  · exact (runRequest_portsForward hrun).of_latch hr
  · exact runOutgoing_portsForward hrun
  · exact runRequest_portsForward hrun

/-! ### Reset -/

/-- An abandoned transaction has put the front of its frame on the link or taken some bytes of the stream,
and its answer stays (70_reset R261; 20_memory R48). -/
theorem State.abandon_portsForward (s : State) (n : Nat) : s.portsForward (s.abandon n) := by
  unfold State.abandon
  split
  case h_1 => exact ⟨⟨0, rfl⟩, ⟨_, rfl⟩, ⟨[], by simp⟩, ⟨0, rfl⟩, ⟨0, Nat.zero_le 1, rfl⟩⟩
  case h_2 | h_3 | h_4 =>
    exact ⟨⟨_, rfl⟩, ⟨[], by simp⟩, ⟨[], by simp⟩, ⟨0, rfl⟩, ⟨0, Nat.zero_le 1, rfl⟩⟩
  case h_5 | h_6 | h_7 => exact s.portsForward_refl

/-- The block accepts the request offered to it, or does nothing (42_session_ops R165). -/
theorem State.accept_cases (s : State) :
    s.accept = s ∨ ∃ r rest, takeRequest s.hostIn = some (r, rest) ∧ s.accept = s.latch r rest := by
  unfold State.accept
  split
  · exact .inr ⟨_, _, ‹_›, rfl⟩
  · exact .inl rfl

/-- A reset answers nothing and leaves both ports as they stand (70_reset R262). -/
theorem State.applyReset_portsForward (s : State) (l : Bool) (n : Nat) :
    s.portsForward (s.applyReset l n) := by
  unfold State.applyReset
  split
  · obtain h | ⟨r, rest, hr, h⟩ := s.accept_cases <;> rw [h]
    · exact s.abandon_portsForward n
    · exact State.portsForward.of_latch (t := ((s.latch r rest).abandon n).resetRegisters) hr
        ((s.latch r rest).abandon_portsForward n)
  · exact s.abandon_portsForward n

/-- Settles O59: a step is a reset, the frame in TX, or a request started or resumed, and each of them
moves the ports only forward. -/
theorem portsOnlyMoveForward : Obligations.PortsOnlyMoveForward := by
  intro s t h
  rcases step_next h with ⟨l, m, ps, _, rfl⟩ | ⟨ps, hb⟩
  · exact State.applyReset_portsForward { s with platform := ps } l m
  · exact blockStep_portsForward (s := { s with platform := ps }) hb

end Sys2Proof.Machine

/-! # The family 30_encoding: the two encodings

First each decoder of a byte list is characterised by the encoder it inverts: the frame's, the request's,
then `decode` by `encode` (O1, O2, O3). Then the layout of a frame (O4), and the typed operations beside
the plain ones they stand for (O44, O45). -/

namespace Sys2Proof

open Machine

/-! ## The wire frame -/

/-- The bytes a length field asked for have that field as their length (30_encoding R65). -/
theorem length_take_field {n : Half} {bs : List Byte} (h : n.toNat ≤ bs.length) :
    BitVec.ofNat 16 (bs.take n.toNat).length = n := by
  rw [List.length_take_of_le h, BitVec.ofNat_toNat, BitVec.setWidth_eq]

theorem length_take_half_le (n : Half) (bs : List Byte) :
    (bs.take n.toNat).length ≤ maxPayload :=
  (List.length_take_le _ _).trans (Nat.le_of_lt_succ n.isLt)

/-- The wire decoder accepts exactly the frames (40_frame_codec R104, R111). -/
theorem decodePacket_eq_ok_iff {bs rest : List Byte} {p : Packet} :
    decodePacket bs = .ok (p, rest) ↔
      p.payload.length ≤ maxPayload ∧ bs = encodePacket p ++ rest := by
  constructor
  · intro h
    unfold decodePacket at h
    split at h
    case h_2 => cases h
    rename_i m0 m1 m2 m3 addr cmd o0 o1 l0 l1 tail
    split at h
    case isFalse => cases h
    rename_i hm
    simp only at h
    split at h
    case h_1 => cases h
    rename_i ck rest' hdrop
    split at h
    case isFalse => cases h
    rename_i hck
    cases h
    have hlen : (le16 l0 l1).toNat ≤ tail.length := by
      by_contra hlt
      simp [List.drop_eq_nil_of_le (Nat.le_of_not_le hlt)] at hdrop
    have htail : tail = tail.take (le16 l0 l1).toNat ++ ck :: rest := by
      rw [← hdrop, List.take_append_drop]
    obtain ⟨rfl, rfl, rfl, rfl⟩ : m0 = 0xAA ∧ m1 = 0xAA ∧ m2 = 0xAA ∧ m3 = 0xAA := by
      simpa [startMarker] using hm
    refine ⟨length_take_half_le _ _, ?_⟩
    rw [encodePacket_eq, length_take_field hlen, lowByte_le16, highByte_le16, lowByte_le16,
      highByte_le16, ← hck]
    simpa using htail
  · rintro ⟨hp, rfl⟩
    exact decodePacket_encodePacket p rest hp

/-- A wire command is encoded as the frame of its packet, and carries its payload (30_encoding R60). -/
theorem encode_of_wireInstr {p : Packet} {i : Instr} (h : wireInstr p = .ok i) :
    encode i = encodePacket p ∧ i.payload = p.payload := by
  obtain ⟨addr, cmd, off, payload⟩ := p
  unfold wireInstr at h
  iterate 5
    split at h
    · rename_i hc
      cases h
      simp only at hc
      subst hc
      exact ⟨rfl, rfl⟩
  cases h

/-- Every wire command is the command of some packet (41_command_catalog R130). -/
theorem exists_wireInstr {i : Instr} (hi : isHostOp i = false) : ∃ p, wireInstr p = .ok i := by
  cases i with
  | frameGetDistance addr off pl => exact ⟨⟨addr, cmdGetDistance, off, pl⟩, rfl⟩
  | frameStop addr off pl => exact ⟨⟨addr, cmdStop, off, pl⟩, rfl⟩
  | frameAcknowledge addr off pl => exact ⟨⟨addr, cmdAcknowledge, off, pl⟩, rfl⟩
  | frameGetCorrectionCoefficients addr off pl =>
    exact ⟨⟨addr, cmdGetCorrectionCoefficients, off, pl⟩, rfl⟩
  | frameConfigureAddress addr off pl => exact ⟨⟨addr, cmdConfigureAddress, off, pl⟩, rfl⟩
  | issue | awaitResponse | configureAddress | getCoefficients | beginStream | stopStream
  | receiveFrame | setDeviceAddress => cases hi

theorem decodeWire_eq_ok_iff {bs rest : List Byte} {i : Instr} :
    decodeWire bs = .ok (i, rest) ↔
      ∃ p, decodePacket bs = .ok (p, rest) ∧ wireInstr p = .ok i := by
  constructor
  · intro h
    unfold decodeWire at h
    split at h
    · cases h
    rename_i p _ hd
    split at h
    · cases h
    · cases h
      exact ⟨p, hd, ‹_›⟩
  · rintro ⟨p, hd, hw⟩
    simp only [decodeWire, hd, hw]

/-! ## The host request -/

/-- The payload is as long as LEN says for ISSUE, and empty otherwise (30_encoding R70, R72). -/
def Request.whole (r : Request) : Prop :=
  r.payload.length = if r.op = 0x00 then r.len.toNat else 0

theorem Request.whole.payload_le {r : Request} (h : r.whole) : r.payload.length ≤ maxPayload := by
  have hlen := r.len.isLt
  unfold Request.whole at h
  unfold maxPayload
  split at h <;> omega

/-- A request byte by byte (30_encoding R70). -/
theorem Request.bytes_eq (r : Request) :
    r.bytes = r.op :: r.a :: r.b :: lowByte r.off :: highByte r.off :: lowByte r.len
      :: highByte r.len :: r.rsv :: r.payload := rfl

/-- What is taken off the host port is one whole request, byte for byte (30_encoding R70, R72). -/
theorem takeRequest_eq_some_iff {bs rest : List Byte} {r : Request} :
    takeRequest bs = some (r, rest) ↔ r.whole ∧ bs = r.bytes ++ rest := by
  constructor
  · intro h
    unfold takeRequest at h
    split at h
    · obtain ⟨hn, h⟩ := Option.ite_none_right_eq_some.mp h
      cases h
      exact ⟨List.length_take_of_le hn, by simp [Request.bytes_eq]⟩
    · cases h
  · rintro ⟨hw, rfl⟩
    have hlen : (if r.op = 0x00 then r.len.toNat else 0) = r.payload.length := Eq.symm hw
    simp only [Request.bytes_eq, List.cons_append, takeRequest, le16_low_high, hlen]
    simp

theorem requestOf_payload (i : Instr) : (requestOf i).payload = i.payload := by
  cases i <;> rfl

theorem encode_of_isHostOp {i : Instr} (hi : isHostOp i = true) :
    encode i = (requestOf i).bytes := by
  cases i with
  | frameGetDistance | frameStop | frameAcknowledge | frameGetCorrectionCoefficients
  | frameConfigureAddress => cases hi
  | issue | awaitResponse | configureAddress | getCoefficients | beginStream | stopStream
  | receiveFrame | setDeviceAddress => rfl

/-- The request of a host operation that is well-formed is whole (30_encoding R72). -/
theorem requestOf_whole {i : Instr} (hi : isHostOp i = true) (hw : i.wellFormed = true) :
    (requestOf i).whole := by
  cases i with
  | frameGetDistance | frameStop | frameAcknowledge | frameGetCorrectionCoefficients
  | frameConfigureAddress => cases hi
  | issue cmd addr off pl => exact (length_field _ (of_decide_eq_true hw)).symm
  | awaitResponse | configureAddress | getCoefficients | beginStream | stopStream
  | receiveFrame | setDeviceAddress => rfl

/-- The request of a host operation names it (30_encoding R71). -/
theorem decodeRequest_requestOf {i : Instr} (hi : isHostOp i = true) :
    decodeRequest (requestOf i) = .ok i := by
  cases i with
  | frameGetDistance | frameStop | frameAcknowledge | frameGetCorrectionCoefficients
  | frameConfigureAddress => cases hi
  | issue | awaitResponse | configureAddress | getCoefficients | beginStream | stopStream
  | receiveFrame | setDeviceAddress => rfl

/-- The fields that must be zero in an accepted request (30_encoding R70, R73). -/
theorem Request.reservedNonzero_eq_false_iff (r : Request) :
    r.reservedNonzero = false ↔ r.rsv = 0
      ∧ (r.op ≠ 0x00 → r.op ≠ 0x07 → r.a = 0) ∧ (r.op ≠ 0x00 → r.b = 0)
      ∧ (r.op ≠ 0x00 → r.off = 0) ∧ (r.op ≠ 0x00 → r.op ≠ 0x06 → r.len = 0) := by
  simp [Request.reservedNonzero, and_assoc]

/-- What an accepted request passed: OP at most 0x07 and no reserved field set (42_session_ops R150). -/
theorem decodeRequest_checks {r : Request} {i : Instr} (h : decodeRequest r = .ok i) :
    r.op.toNat ≤ 0x07 ∧ r.reservedNonzero = false := by
  unfold decodeRequest at h
  split at h
  · cases h
  split at h
  · cases h
  · exact ⟨Nat.le_of_not_lt ‹_›, by simpa using ‹¬ r.reservedNonzero = true›⟩

/-- A whole request that is accepted is the request of the operation it names: every field is an operand
of it or zero (30_encoding R70, R73). -/
theorem requestOf_of_decodeRequest {r : Request} {i : Instr} (hw : r.whole)
    (h : decodeRequest r = .ok i) : requestOf i = r := by
  obtain ⟨hop, hres⟩ := decodeRequest_checks h
  obtain ⟨hrsv, ha, hb, hoff, hlen⟩ := (Request.reservedNonzero_eq_false_iff r).mp hres
  obtain ⟨op, a, b, off, len, rsv, pl⟩ := r
  simp only at hop hrsv ha hb hoff hlen
  unfold Request.whole at hw
  simp only at hw
  subst hrsv
  unfold decodeRequest at h
  rw [if_neg (Nat.not_lt.mpr hop), hres] at h
  simp only [Bool.false_eq_true, if_false] at h
  by_cases h0 : op = 0x00
  · subst h0
    cases h
    simp [requestOf, Request.issue, hw]
  obtain rfl := hb h0
  obtain rfl := hoff h0
  obtain rfl := List.eq_nil_of_length_eq_zero (hw.trans (if_neg h0))
  rw [if_neg h0] at h
  iterate 5
    split at h
    · subst op
      obtain rfl := ha (by decide) (by decide)
      obtain rfl := hlen (by decide) (by decide)
      cases h
      rfl
  split at h
  · subst op
    obtain rfl := ha (by decide) (by decide)
    cases h
    rfl
  · have hop7 : op = 0x07 := by bv_omega
    subst hop7
    obtain rfl := hlen (by decide) (by decide)
    cases h
    rfl

/-! ## Both encodings -/

/-- A frame begins 0xAA, so it goes to the wire decoder (30_encoding R61, R71). -/
theorem decode_encodePacket (p : Packet) (rest : List Byte) :
    decode (encodePacket p ++ rest) = decodeWire (encodePacket p ++ rest) := rfl

/-- No OP of a host operation is 0xAA, so its request goes to the request decoder (30_encoding R71,
R73). -/
theorem decode_request {r : Request} {i : Instr} (rest : List Byte) (hw : r.whole)
    (h : decodeRequest r = .ok i) : decode (r.bytes ++ rest) = .ok (i, rest) := by
  have hop : r.op ≠ 0xAA := by
    have hle := (decodeRequest_checks h).1
    bv_omega
  have htake : takeRequest (r.bytes ++ rest) = some (r, rest) :=
    takeRequest_eq_some_iff.mpr ⟨hw, rfl⟩
  rw [Request.bytes_eq, List.cons_append] at htake ⊢
  simp only [decode, if_neg hop, htake, h]

/-- What decodes is a frame of a wire command or the request of a host operation. -/
theorem decode_ok {bs rest : List Byte} {i : Instr} (h : decode bs = .ok (i, rest)) :
    decodeWire bs = .ok (i, rest)
      ∨ ∃ r, takeRequest bs = some (r, rest) ∧ decodeRequest r = .ok i := by
  unfold decode at h
  split at h
  · cases h
  split at h
  · exact .inl h
  split at h
  · cases h
  rename_i r _ htake
  split at h
  · cases h
  · cases h
    exact .inr ⟨r, htake, ‹_›⟩

/-- The decoder accepts exactly the encodings of well-formed instructions, whatever follows them. -/
theorem decode_eq_ok_iff {bs rest : List Byte} {i : Instr} :
    decode bs = .ok (i, rest) ↔ i.wellFormed = true ∧ bs = encode i ++ rest := by
  constructor
  · intro h
    obtain hwire | ⟨r, htake, hr⟩ := decode_ok h
    · obtain ⟨p, hp, hi⟩ := decodeWire_eq_ok_iff.mp hwire
      obtain ⟨henc, hpl⟩ := encode_of_wireInstr hi
      obtain ⟨hlen, rfl⟩ := decodePacket_eq_ok_iff.mp hp
      exact ⟨decide_eq_true (hpl ▸ hlen), by rw [henc]⟩
    · obtain ⟨hw, rfl⟩ := takeRequest_eq_some_iff.mp htake
      obtain rfl := requestOf_of_decodeRequest hw hr
      exact ⟨decide_eq_true (requestOf_payload i ▸ hw.payload_le),
        by rw [encode_of_isHostOp (decodeRequest_op hr).1]⟩
  · rintro ⟨hwf, rfl⟩
    cases hi : isHostOp i with
    | false =>
      obtain ⟨p, hp⟩ := exists_wireInstr hi
      obtain ⟨henc, hpl⟩ := encode_of_wireInstr hp
      have hlen : p.payload.length ≤ maxPayload := hpl ▸ of_decide_eq_true hwf
      rw [henc, decode_encodePacket]
      exact decodeWire_eq_ok_iff.mpr ⟨p, decodePacket_encodePacket p rest hlen, hp⟩
    | true =>
      rw [encode_of_isHostOp hi]
      exact decode_request rest (requestOf_whole hi hwf) (decodeRequest_requestOf hi)

/-- Settles O1: the encoding of a well-formed instruction is accepted, and read as that instruction. -/
theorem decodeEncodeRoundTrip : Obligations.DecodeEncodeRoundTrip := by
  intro i rest hwf
  exact decode_eq_ok_iff.mpr ⟨hwf, rfl⟩

/-- Settles O2: only the encodings of well-formed instructions are accepted. -/
theorem decodeAcceptsOnlyEncodings : Obligations.DecodeAcceptsOnlyEncodings := by
  intro bs i rest h
  exact decode_eq_ok_iff.mp h

/-- Settles O3: each accepted word is written out as the encoding of its instruction, and the two rejected
requests fail the checks of 42_session_ops R150. -/
theorem writtenOutWordsDecode : Obligations.WrittenOutWordsDecode := by
  unfold Obligations.WrittenOutWordsDecode
  simp only [decode_eq_ok_iff]
  exact ⟨⟨rfl, rfl⟩, ⟨rfl, rfl⟩, ⟨rfl, rfl⟩, ⟨rfl, rfl⟩, ⟨rfl, rfl⟩, rfl, rfl⟩

/-! ## The layout of a frame -/

/-- The bytes a frame's checksum is taken over, the fields after the marker (30_encoding R67). -/
def Packet.summed (p : Packet) : List Byte :=
  p.addr :: p.cmd :: lowByte p.off :: highByte p.off
    :: lowByte (BitVec.ofNat 16 p.payload.length) :: highByte (BitVec.ofNat 16 p.payload.length)
    :: p.payload

theorem Packet.summed_length (p : Packet) : p.summed.length = 6 + p.payload.length := by
  simp only [Packet.summed, List.length_cons]
  omega

/-- A frame is the marker, the bytes summed, and their checksum. -/
theorem encodePacket_eq_summed (p : Packet) :
    encodePacket p = startMarker ++ (p.summed ++ [checksum p.addr p.cmd p.off p.payload]) := rfl

theorem lowByte_toNat (v : Half) : (lowByte v).toNat = v.toNat % 256 := by
  rw [lowByte, BitVec.toNat_ofNat, Nat.mod_mod]

theorem highByte_toNat (v : Half) : (highByte v).toNat = v.toNat / 256 := by
  have hv := v.isLt
  rw [highByte, BitVec.toNat_ofNat]
  omega

/-- A 16-bit field is its two bytes, low byte first (00_scope R15). -/
theorem lowByte_add_highByte (v : Half) :
    (lowByte v).toNat + 256 * (highByte v).toNat = v.toNat := by
  rw [lowByte_toNat, highByte_toNat]
  omega

/-- The checksum is the sum of the bytes it is taken over, mod 256 (30_encoding R67; 40_frame_codec
R100). -/
theorem checksum_toNat (p : Packet) (hp : p.payload.length ≤ maxPayload) :
    (checksum p.addr p.cmd p.off p.payload).toNat = (p.summed.map BitVec.toNat).sum % 256 := by
  simp only [checksum, BitVec.toNat_ofNat, Packet.summed, List.map_cons, List.sum_cons,
    lowByte_toNat, highByte_toNat, length_field _ hp]
  omega

/-- Settles O4: the frame byte by byte, with each 16-bit field the sum of its two bytes. -/
theorem frameLayout : Obligations.FrameLayout := by
  intro p hp f n
  have hck : (f.drop 4).take (6 + n) = p.summed := by
    simp only [f, n, encodePacket_eq_summed, ← Packet.summed_length]
    exact List.take_left
  refine ⟨encodePacket_length p, rfl, rfl, rfl, lowByte_add_highByte p.off,
    (lowByte_add_highByte _).trans (length_field n hp), List.take_left, ?_⟩
  rw [hck, ← checksum_toNat p hp]
  simp [f, n, encodePacket_eq, Nat.add_comm 10]

namespace Machine

/-! ## Typed operations and their plain equivalents -/

theorem requireMode_of_eq {m : Mode} {s : State} (op : Byte) (h : s.mode = m) :
    requireMode m op s = .run () s := if_pos h

/-- An ISSUE whose checks pass is its SEND (42_session_ops R157). -/
theorem exec_issue_eq {s : State} (p : Packet) (hk : known p.cmd = true)
    (hl : sendLegal s.mode p.cmd = true) :
    exec (.issue p.cmd p.addr p.off p.payload) s
      = ((send p s).bind fun _ u => .run .empty u).finish := by
  show (issueFlow p.cmd p.addr p.off p.payload s).finish = _
  rw [issueFlow, if_pos hk, if_pos hl]

/-- Settles O44: where the typed operation's mode check passes so do those of its ISSUE, and then each of
them is the SEND of one packet. -/
theorem typedSendsActLikeIssue : Obligations.TypedSendsActLikeIssue := by
  intro s
  refine ⟨fun hm => ?_, ?_⟩
  · rw [exec_issue_eq ⟨s.devAddr, 0x02, 0, []⟩ rfl (by rw [hm]; rfl)]
    show (beginStreamFlow s).finish = _
    rw [beginStreamFlow, requireMode_of_eq 0x04 hm]
    rfl
  · rw [exec_issue_eq ⟨s.devAddr, 0x0F, 0, []⟩ rfl (by cases s.mode <;> rfl)]
    rfl

/-- What an operation makes of the packet it received: one response, and the state as it was
(43_payload_decoders R207). -/
def Responds (g : Packet → State → Flow Result) : Prop :=
  ∀ q u, ∃ r, (g q u).finish = .next (u.respond r)

theorem interpretWith_responds (P : Params) (c : Byte) (a : State → Option Byte)
    (d : Packet → Except ErrorInfo Result) :
    Responds fun q u => interpretWith P c (a u) d q u := by
  intro q u
  rcases interpretWith_cases P c (a u) d q u with ⟨r, _, _, h⟩ | ⟨e, _, h⟩
  · exact ⟨_, congrArg Flow.finish h⟩
  · exact ⟨_, congrArg Flow.finish h⟩

theorem packetResult_responds : Responds fun q u => .run (packetResult q) u :=
  fun _ _ => ⟨_, rfl⟩

/-- In Idle, CONFIGURE_ADDRESS and GET_COEFFICIENTS are a SEND and then RECV, or RECV alone where they are
past the SEND, and then their response (42_session_ops R159, R160). -/
theorem exec_typedReceive {s : State} {i : Instr} {p : Packet}
    (hi : i = .configureAddress ∨ i = .getCoefficients) (hp : s.packetSent i = some p)
    (hm : s.mode = .idle) :
    ∃ g, Responds g ∧ exec i s = (if s.receiving then (recv s).bind g
      else (send p s).bind fun _ u => (recv u).bind g).finish := by
  obtain rfl | rfl := hi
  · obtain rfl := Option.some.inj hp
    refine ⟨interpretAddress Config.params,
      interpretWith_responds _ _ (fun _ => none) _, ?_⟩
    show (configureAddressFlow Config.params s).finish = _
    rw [configureAddressFlow, requireMode_of_eq 0x02 hm]
    split <;> rfl
  · obtain rfl := Option.some.inj hp
    refine ⟨interpretCalibration Config.params,
      interpretWith_responds _ _ (fun u => some u.devAddr) _, ?_⟩
    show (getCoefficientsFlow Config.params s).finish = _
    rw [getCoefficientsFlow, requireMode_of_eq 0x03 hm]
    split <;> rfl

/-- In Idle, AWAIT_RESPONSE is RECV and then its response (42_session_ops R158). -/
theorem exec_awaitResponse_eq {s : State} (hm : s.mode = .idle) :
    exec .awaitResponse s = ((recv s).bind fun q u => .run (packetResult q) u).finish := by
  show (awaitFlow s).finish = _
  rw [awaitFlow, requireMode_of_eq 0x01 hm, ite_self]
  rfl

/-- Two operations that receive do the same in one step but for the response: both wait, or both end. -/
theorem recv_finish_cases {s u : State} {g g' : Packet → State → Flow Result} (hg : Responds g)
    (hg' : Responds g') (h : ((recv s).bind g).finish = .next u) :
    (u.hostOut = s.hostOut ∧ ((recv s).bind g').finish = .next u)
    ∨ ∃ (t : State) (r r' : Response), t.hostOut = s.hostOut ∧ u = t.respond r
        ∧ ((recv s).bind g').finish = .next (t.respond r') := by
  have hkept := recv_kept s
  cases hx : recv s with
  | run q t =>
    rw [hx] at hkept h
    obtain ⟨_, _, _, _, hout, _⟩ := hkept
    obtain ⟨r, hr⟩ := hg q t
    obtain ⟨r', hr'⟩ := hg' q t
    obtain rfl : t.respond r = u := Host.Outcome.next.inj (hr.symm.trans h)
    exact .inr ⟨t, r, r', hout, rfl, hr'⟩
  | wait t =>
    rw [hx] at hkept h
    obtain ⟨_, _, _, _, hout, _⟩ := hkept
    obtain rfl : t = u := Host.Outcome.next.inj h
    exact .inl ⟨hout, rfl⟩
  | err e t =>
    rw [hx] at hkept h
    obtain ⟨_, _, _, _, hout, _⟩ := hkept
    exact .inr ⟨t, _, _, hout, (Host.Outcome.next.inj h).symm, rfl⟩
  | stop f =>
    rw [hx] at h
    cases h

theorem sendWrite_complete {s : State} {as : List Answer} (p : Packet)
    (ha : s.answers = .complete :: as) : sendWrite p s = .run () (s.written p as) := by
  simp only [sendWrite, txWrite, ha]
  rfl

/-- In TX, a write that completes runs SEND through (42_session_ops R152, R154). -/
theorem send_complete {s : State} {as : List Answer} {p : Packet}
    (hp : p.payload.length ≤ maxPayload) (hs : s.phase = .tx) (ha : s.answers = .complete :: as) :
    send p s = .run () (s.written p as) := by
  rw [send_eq p s hp, if_pos hs, sendWrite_complete p ha]

/-- The packet of CONFIGURE_ADDRESS and GET_COEFFICIENTS: catalogued, empty, and leaving MODE
(42_session_ops R152, R159, R160). -/
theorem typedReceive_packet {s : State} {i : Instr} {p : Packet}
    (hi : i = .configureAddress ∨ i = .getCoefficients) (hp : s.packetSent i = some p) :
    known p.cmd = true ∧ p.payload = [] ∧ p.cmd ≠ cmdGetDistance ∧ p.cmd ≠ cmdStop := by
  obtain rfl | rfl := hi
  · obtain rfl := Option.some.inj hp
    exact ⟨rfl, rfl, show cmdConfigureAddress ≠ cmdGetDistance by decide,
      show cmdConfigureAddress ≠ cmdStop by decide⟩
  · obtain rfl := Option.some.inj hp
    exact ⟨rfl, rfl, show cmdGetCorrectionCoefficients ≠ cmdGetDistance by decide,
      show cmdGetCorrectionCoefficients ≠ cmdStop by decide⟩

theorem State.starting_iff (s : State) :
    s.starting = true ↔ s.phase = .ready ∨ s.phase = .check := by
  unfold State.starting
  cases s.phase <;> decide

/-- Settles O45: before and in TX both operations make the same SEND, and after it they make the same
RECV; only the response is their own. -/
theorem typedReceivesActLikeIssueThenAwait : Obligations.TypedReceivesActLikeIssueThenAwait := by
  intro s i p hi hp hm
  obtain ⟨hk, hpl, h2, hstop⟩ := typedReceive_packet hi hp
  have hlen : p.payload.length ≤ maxPayload := by simp [hpl]
  have hl : sendLegal s.mode p.cmd = true := by rw [hm]; rfl
  obtain ⟨g, hg, hexec⟩ := exec_typedReceive hi hp hm
  rw [hexec, exec_issue_eq p hk hl]
  refine ⟨fun hstart => ?_, fun as hs ha => ?_, fun hr u hu => ?_⟩
  · have hr : s.receiving = false := by
      obtain h | h := s.starting_iff.mp hstart <;> simp [State.receiving, h]
    have hs : s.phase ≠ .tx := by
      obtain h | h := s.starting_iff.mp hstart <;> simp [h]
    rw [hr, send_eq p s hlen, if_neg hs]
    rfl
  · have hr : s.receiving = false := by simp [State.receiving, hs]
    have hidle : ((s.written p as).respond (Response.ok .empty)).mode = .idle :=
      written_idle as h2 hstop hl
    have hrecv : recv (s.written p as) = .wait ((s.written p as).setPhase .rxHeader) :=
      recv_of_tx hs
    rw [hr, send_complete hlen hs ha]
    refine ⟨_, _, rfl, exec_awaitResponse_eq hidle, ?_⟩
    simp only [Bool.false_eq_true, if_false, Flow.bind_run, hrecv]
    rfl
  · rw [if_pos hr]
    rw [exec_awaitResponse_eq hm] at hu
    obtain ⟨hout, hv⟩ | ⟨t, r, r', hout, rfl, hv⟩ :=
      recv_finish_cases packetResult_responds hg hu
    · exact ⟨u, hv, rfl, fun _ => hout, fun hne => absurd hout hne⟩
    · refine ⟨_, hv, rfl, fun h => ?_, fun _ => ⟨r', ?_⟩⟩
      · simp [hout] at h
      · simp [hout]

end Machine

end Sys2Proof

/-! # The family 40_frame_codec: the checksum, Encode and Decode

First the checksum and the frame in TXBUF (O5, O16). Then a frame at the front of a byte list: its header,
payload and packet, and what the one-pass decoder says of them (O22). Then the three reads of RECV, each
by what the stream holds: what they report of a bad frame (O25), how many bytes they take (O23), and that
together they are the one-pass decoder (O21). -/

namespace Sys2Proof

/-! ## The checksum -/

/-- Adding bytes one after another, each sum reduced mod 256, is adding them as numbers and reducing once
(40_frame_codec R100). -/
theorem foldl_add_toNat (bs : List Byte) (acc : Byte) :
    (bs.foldl (fun acc b => acc + b) acc).toNat
      = (acc.toNat + (bs.map BitVec.toNat).sum) % 256 := by
  induction bs generalizing acc with
  | nil => exact (Nat.mod_eq_of_lt acc.isLt).symm
  | cons b bs ih =>
    rw [List.foldl_cons, ih, List.map_cons, List.sum_cons, BitVec.toNat_add]
    omega

theorem byte_sum_le (bs : List Byte) : (bs.map BitVec.toNat).sum ≤ 255 * bs.length := by
  induction bs with
  | nil => exact Nat.le_refl 0
  | cons b bs ih =>
    have hb := b.isLt
    rw [List.map_cons, List.sum_cons, List.length_cons]
    omega

/-- Settles O5: the named bytes are those a frame's checksum is taken over, at most 6 + 65535 of them. -/
theorem checksumIsByteSum : Obligations.ChecksumIsByteSum := by
  intro addr cmd off pl hlen bs
  have hbs : bs = Packet.summed ⟨addr, cmd, off, pl⟩ := rfl
  have hck : (checksum addr cmd off pl).toNat = (bs.map BitVec.toNat).sum % 256 :=
    checksum_toNat ⟨addr, cmd, off, pl⟩ hlen
  have hn : bs.length = 6 + pl.length := by rw [hbs, Packet.summed_length]
  have hsum := byte_sum_le bs
  refine ⟨hck, BitVec.eq_of_toNat_eq ?_, by omega, by omega⟩
  rw [hck, foldl_add_toNat]
  exact congrArg (· % 256) (Nat.zero_add _).symm

namespace Machine

/-- Settles O16: Encode's write covers the whole frame, so what TXBUF held before is not read. -/
theorem txbufHoldsTheFrame : Obligations.TxbufHoldsTheFrame :=
  State.loadTx_txFrame

/-! ## The frame at the front of a byte list -/

/-- The header that ten bytes at the front of a byte list are (30_encoding R60). -/
abbrev frontHeader (bs : List Byte) : Header := Header.ofBytes (bs.take 10)

/-- The bytes after the header, as many as it declares (30_encoding R65). -/
def frontPayload (bs : List Byte) : List Byte :=
  (bs.drop 10).take (frontHeader bs).declLen.toNat

/-- The packet of the frame at the front of a byte list (40_frame_codec R104). -/
def frontPacket (bs : List Byte) : Packet :=
  ⟨(frontHeader bs).addr, (frontHeader bs).cmd, (frontHeader bs).off, frontPayload bs⟩

/-- The checksum that the frame at the front of a byte list should carry (40_frame_codec R104). -/
def frontChecksum (bs : List Byte) : Byte :=
  checksum (frontPacket bs).addr (frontPacket bs).cmd (frontPacket bs).off (frontPacket bs).payload

/-- What a byte list goes on with at a place where it goes on at all. -/
theorem drop_eq_cons {bs rest : List Byte} {n : Nat} {b : Byte} (h : bs.drop n = b :: rest) :
    n < bs.length ∧ bs.getD n 0 = b ∧ bs.drop (n + 1) = rest := by
  have hn : n < bs.length := by
    by_contra hle
    simp [List.drop_eq_nil_of_le (Nat.le_of_not_lt hle)] at h
  rw [List.drop_eq_getElem_cons hn] at h
  obtain ⟨hb, hrest⟩ := List.cons.inj h
  exact ⟨hn, by rw [List.getD_eq_getElem _ _ hn, hb], hrest⟩

theorem exists_header_bytes {bs : List Byte} (h : 10 ≤ bs.length) :
    ∃ b0 b1 b2 b3 b4 b5 b6 b7 b8 b9 rest,
      bs = b0 :: b1 :: b2 :: b3 :: b4 :: b5 :: b6 :: b7 :: b8 :: b9 :: rest := by
  iterate 10
    obtain ⟨_, bs, rfl⟩ := List.exists_cons_of_length_pos (l := bs) (by omega)
    rw [List.length_cons] at h
  exact ⟨_, _, _, _, _, _, _, _, _, _, _, rfl⟩

theorem frontHeader_marker {bs : List Byte} (h : 10 ≤ bs.length) :
    (frontHeader bs).marker = bs.take 4 := by
  obtain ⟨b0, b1, b2, b3, b4, b5, b6, b7, b8, b9, rest, rfl⟩ := exists_header_bytes h
  rfl

theorem frontHeader_declLen (bs : List Byte) :
    (frontHeader bs).declLen = le16 (bs.getD 8 0) (bs.getD 9 0) := by
  simp [Header.ofBytes, Header.declLen, List.getD_eq_getElem?_getD]

theorem frontPayload_length {bs : List Byte}
    (h : 10 + (frontHeader bs).declLen.toNat ≤ bs.length) :
    (frontPayload bs).length = (frontHeader bs).declLen.toNat := by
  rw [frontPayload, List.length_take_of_le]
  rw [List.length_drop]
  omega

/-- The bytes 4 to 9 + N of a byte list are those its front packet's checksum is taken over (30_encoding
R67). -/
theorem summed_frontPacket {bs : List Byte}
    (h : 10 + (frontHeader bs).declLen.toNat ≤ bs.length) :
    (frontPacket bs).summed = (bs.drop 4).take (6 + (frontHeader bs).declLen.toNat) := by
  have hlen := frontPayload_length h
  obtain ⟨b0, b1, b2, b3, b4, b5, b6, b7, b8, b9, rest, rfl⟩ :=
    exists_header_bytes (bs := bs) (by omega)
  simp only [Packet.summed, frontPacket, hlen, Nat.add_comm 6]
  simp only [Header.declLen, Header.off, lowByte_le16, highByte_le16, BitVec.ofNat_toNat,
    BitVec.setWidth_eq]
  rfl

/-- Everything the one-pass decoder can say of a byte list (40_frame_codec R104 to R106). -/
theorem decodePacket_cases (bs : List Byte) :
    (bs.length < 10 ∧ decodePacket bs = .error .truncated)
    ∨ (10 ≤ bs.length ∧ (frontHeader bs).marker ≠ startMarker
      ∧ decodePacket bs = .error .badMarker)
    ∨ (10 ≤ bs.length ∧ (frontHeader bs).marker = startMarker
      ∧ bs.length < 11 + (frontHeader bs).declLen.toNat ∧ decodePacket bs = .error .truncated)
    ∨ (∃ ck rest, (frontHeader bs).marker = startMarker
      ∧ bs.drop (10 + (frontHeader bs).declLen.toNat) = ck :: rest ∧ ck = frontChecksum bs
      ∧ decodePacket bs = .ok (frontPacket bs, rest))
    ∨ (∃ ck rest, (frontHeader bs).marker = startMarker
      ∧ bs.drop (10 + (frontHeader bs).declLen.toNat) = ck :: rest ∧ ck ≠ frontChecksum bs
      ∧ decodePacket bs = .error (.badChecksum ck (frontChecksum bs))) := by
  by_cases hten : 10 ≤ bs.length
  case neg =>
    refine .inl ⟨Nat.lt_of_not_le hten, ?_⟩
    unfold decodePacket
    split
    · simp at hten
    · rfl
  obtain ⟨b0, b1, b2, b3, b4, b5, b6, b7, b8, b9, tail, rfl⟩ := exists_header_bytes hten
  by_cases hm : [b0, b1, b2, b3] = startMarker
  case neg => exact .inr (.inl ⟨hten, hm, if_neg hm⟩)
  rw [← List.drop_drop]
  cases hdrop : tail.drop (le16 b8 b9).toNat with
  | nil =>
    refine .inr (.inr (.inl ⟨hten, hm, ?_, ?_⟩))
    · have hlen := List.drop_eq_nil_iff.mp hdrop
      show tail.length + 10 < 11 + (le16 b8 b9).toNat
      omega
    · simp only [decodePacket, if_pos hm, hdrop]
  | cons ck rest =>
    by_cases hck : ck = checksum b4 b5 (le16 b6 b7) (tail.take (le16 b8 b9).toNat)
    · refine .inr (.inr (.inr (.inl ⟨ck, rest, hm, hdrop, hck, ?_⟩)))
      simp only [decodePacket, if_pos hm, hdrop, if_pos hck]
      rfl
    · refine .inr (.inr (.inr (.inr ⟨ck, rest, hm, hdrop, hck, ?_⟩)))
      simp only [decodePacket, if_pos hm, hdrop, if_neg hck]
      rfl

/-- The decoder finds a packet just where the marker stands, all 11 + N bytes do, and the last of them is
the checksum (40_frame_codec R111). -/
theorem exists_decodePacket_ok_iff (bs : List Byte) :
    (∃ p rest, decodePacket bs = .ok (p, rest)) ↔
      11 + (frontHeader bs).declLen.toNat ≤ bs.length ∧ (frontHeader bs).marker = startMarker
        ∧ bs.getD (10 + (frontHeader bs).declLen.toNat) 0 = frontChecksum bs := by
  rcases decodePacket_cases bs with
    ⟨hlen, hd⟩ | ⟨_, hm, hd⟩ | ⟨_, _, hlen, hd⟩ | ⟨ck, rest, hm, hdrop, hck, hd⟩
      | ⟨ck, rest, hm, hdrop, hck, hd⟩ <;> rw [hd]
  · exact iff_of_false (fun ⟨_, _, h⟩ => nomatch h) fun ⟨hle, _⟩ => by omega
  · exact iff_of_false (fun ⟨_, _, h⟩ => nomatch h) fun ⟨_, hmark, _⟩ => hm hmark
  · exact iff_of_false (fun ⟨_, _, h⟩ => nomatch h) fun ⟨hle, _⟩ => by omega
  · obtain ⟨hlt, hget, _⟩ := drop_eq_cons hdrop
    exact iff_of_true ⟨_, _, rfl⟩ ⟨by omega, hm, hget.trans hck⟩
  · obtain ⟨_, hget, _⟩ := drop_eq_cons hdrop
    exact iff_of_false (fun ⟨_, _, h⟩ => nomatch h) fun ⟨_, _, heq⟩ => hck (hget.symm.trans heq)

/-- Settles O22: the decoder's own condition, with the header's fields and the checksum spelled out over
the bytes of the list. -/
theorem frameAcceptance : Obligations.FrameAcceptance := by
  intro bs
  have hn : (frontHeader bs).declLen.toNat = (bs.getD 8 0).toNat + 256 * (bs.getD 9 0).toNat := by
    rw [frontHeader_declLen, le16_toNat]
  rw [exists_decodePacket_ok_iff, hn]
  refine and_congr_right fun hlen => ?_
  have hck : (frontChecksum bs).toNat = ((frontPacket bs).summed.map BitVec.toNat).sum % 256 :=
    checksum_toNat (frontPacket bs) (length_take_half_le _ _)
  rw [frontHeader_marker (by omega), ← hn, ← summed_frontPacket (by omega), ← hck]
  exact and_congr_right fun _ => BitVec.toNat_inj.symm

/-! ## The three reads, by what the stream holds -/

theorem rxRead_complete {s : State} {as : List Answer} {n : Nat} (w : Transaction)
    (ha : s.answers = .complete :: as) (hn : n ≤ s.rxStream.length) :
    rxRead w n s
      = .run (s.rxStream.take n) { s with answers := as, rxStream := s.rxStream.drop n } := by
  simp only [rxRead, ha, if_pos hn]

/-- A read completed on too short a stream is no answer (20_memory R46; log entry 3). -/
theorem rxRead_short {s : State} {as : List Answer} {n : Nat} (w : Transaction)
    (ha : s.answers = .complete :: as) (hn : s.rxStream.length < n) : rxRead w n s = .wait s := by
  simp only [rxRead, ha, if_neg (Nat.not_le.mpr hn)]

/-- The state with a good header read, the next read issued (40_frame_codec R104). -/
def State.headerRead (s : State) (as : List Answer) : State :=
  { s with
    phase := if (frontHeader s.rxStream).declLen = 0 then .rxChecksum else .rxPayload
    hdr := frontHeader s.rxStream, declLen := (frontHeader s.rxStream).declLen
    rxStream := s.rxStream.drop 10, answers := as }

/-- The state with a good header and its payload read, the checksum read issued (40_frame_codec R104). -/
def State.payloadRead (s : State) (as : List Answer) : State :=
  { s with
    phase := .rxChecksum
    hdr := frontHeader s.rxStream, declLen := (frontHeader s.rxStream).declLen
    rxpay := s.rxpay.writeBytes 0 (frontPayload s.rxStream)
    rxStream := s.rxStream.drop (10 + (frontHeader s.rxStream).declLen.toNat), answers := as }

section Reads

variable {s : State} {as : List Answer}

theorem recvHeader_good (ha : s.answers = .complete :: as) (hn : 10 ≤ s.rxStream.length)
    (hm : (frontHeader s.rxStream).marker = startMarker) :
    recvHeader s = .wait (s.headerRead as) := by
  rw [recvHeader, rxRead_complete _ ha hn]
  exact if_pos hm

theorem recvHeader_bad (ha : s.answers = .complete :: as) (hn : 10 ≤ s.rxStream.length)
    (hm : (frontHeader s.rxStream).marker ≠ startMarker) :
    recvHeader s = .err
      (.framing (frontHeader s.rxStream).m0 (frontHeader s.rxStream).m1
        (frontHeader s.rxStream).m2 (frontHeader s.rxStream).m3)
      { s with answers := as, rxStream := s.rxStream.drop 10, hdr := frontHeader s.rxStream } := by
  rw [recvHeader, rxRead_complete _ ha hn]
  exact if_neg hm

theorem recvHeader_short (ha : s.answers = .complete :: as) (hn : s.rxStream.length < 10) :
    recvHeader s = .wait s := by
  rw [recvHeader, rxRead_short _ ha hn]
  rfl

theorem recvPayload_good (ha : s.answers = .complete :: as)
    (hn : s.declLen.toNat ≤ s.rxStream.length) :
    recvPayload s = .wait
      { s with
        phase := .rxChecksum, answers := as, rxStream := s.rxStream.drop s.declLen.toNat
        rxpay := s.rxpay.writeBytes 0 (s.rxStream.take s.declLen.toNat) } := by
  rw [recvPayload, rxRead_complete _ ha hn]
  rfl

theorem recvPayload_short (ha : s.answers = .complete :: as)
    (hn : s.rxStream.length < s.declLen.toNat) : recvPayload s = .wait s := by
  rw [recvPayload, rxRead_short _ ha hn]
  rfl

theorem recvChecksum_good {ck : Byte} {rest : List Byte} (ha : s.answers = .complete :: as)
    (hr : s.rxStream = ck :: rest) (hck : ck = s.computedChecksum) :
    recvChecksum s = .run s.packet
      { s with
        phase := .interpret, answers := as, rxStream := rest
        rxCk := ck, calcCk := s.computedChecksum } := by
  rw [recvChecksum, rxRead_complete _ ha (by simp [hr]), hr]
  exact if_pos hck

theorem recvChecksum_bad {ck : Byte} {rest : List Byte} (ha : s.answers = .complete :: as)
    (hr : s.rxStream = ck :: rest) (hck : ck ≠ s.computedChecksum) :
    recvChecksum s = .err (.checksum ck s.computedChecksum)
      { s with answers := as, rxStream := rest, rxCk := ck, calcCk := s.computedChecksum } := by
  rw [recvChecksum, rxRead_complete _ ha (by simp [hr]), hr]
  exact if_neg hck

theorem recvChecksum_short (ha : s.answers = .complete :: as) (hr : s.rxStream = []) :
    recvChecksum s = .wait s := by
  rw [recvChecksum, rxRead_short _ ha (by simp [hr])]
  rfl

theorem recv_rxHeader (hs : s.phase = .rxHeader) : recv s = recvHeader s := by simp [recv, hs]

theorem recv_rxPayload (hs : s.phase = .rxPayload) : recv s = recvPayload s := by simp [recv, hs]

theorem recv_rxChecksum (hs : s.phase = .rxChecksum) : recv s = recvChecksum s := by
  simp [recv, hs]

/-- Where none of its reads is outstanding, RECV issues the header read (42_session_ops R155). -/
theorem recv_of_not_receiving (hr : s.receiving = false) :
    recv s = .wait (s.setPhase .rxHeader) := by
  unfold State.receiving at hr
  unfold recv
  cases hs : s.phase <;> simp_all

end Reads

/-! ## Operations that are past their SEND -/

/-- While it receives, an instruction's step is RECV and then `g` (42_session_ops R158 to R160, R163). -/
def Resumes (i : Instr) (g : Packet → State → Flow Result) : Prop :=
  ∀ s : State, s.receiving = true → exec i s = ((recv s).bind g).finish

theorem awaitResponse_resumes : Resumes .awaitResponse fun p s => .run (packetResult p) s := by
  intro s hr
  show (awaitFlow s).finish = _
  rw [awaitFlow, if_pos hr]
  rfl

theorem configureAddress_resumes :
    Resumes .configureAddress (interpretAddress Config.params) := by
  intro s hr
  show (configureAddressFlow Config.params s).finish = _
  rw [configureAddressFlow, if_pos hr]
  rfl

theorem getCoefficients_resumes :
    Resumes .getCoefficients (interpretCalibration Config.params) := by
  intro s hr
  show (getCoefficientsFlow Config.params s).finish = _
  rw [getCoefficientsFlow, if_pos hr]
  rfl

theorem receiveFrame_resumes (expected : Half) :
    Resumes (.receiveFrame expected) (interpretDistance Config.params expected) := by
  intro s hr
  show (receiveFrameFlow Config.params expected s).finish = _
  rw [receiveFrameFlow, if_pos hr]
  rfl

/-- The four operations that receive (42_session_ops R158 to R160, R163). -/
theorem exists_resumes {i : Instr}
    (hi : i = .awaitResponse ∨ i = .configureAddress ∨ i = .getCoefficients
      ∨ ∃ expected, i = .receiveFrame expected) : ∃ g, Resumes i g := by
  obtain rfl | rfl | rfl | ⟨expected, rfl⟩ := hi
  · exact ⟨_, awaitResponse_resumes⟩
  · exact ⟨_, configureAddress_resumes⟩
  · exact ⟨_, getCoefficients_resumes⟩
  · exact ⟨_, receiveFrame_resumes expected⟩

section Steps

variable {i : Instr} {g : Packet → State → Flow Result} {s t : State}

theorem State.receiving_of_phase
    (h : s.phase = .rxHeader ∨ s.phase = .rxPayload ∨ s.phase = .rxChecksum) :
    s.receiving = true := by
  obtain h | h | h := h <;> rw [State.receiving, h]

theorem Resumes.wait (hi : Resumes i g) (hr : s.receiving = true) (h : recv s = .wait t) :
    exec i s = .next t := by
  rw [hi s hr, h]
  rfl

theorem Resumes.run {p : Packet} (hi : Resumes i g) (hr : s.receiving = true)
    (h : recv s = .run p t) : exec i s = (g p t).finish := by
  rw [hi s hr, h]
  rfl

theorem Resumes.err {e : ErrorInfo} (hi : Resumes i g) (hr : s.receiving = true)
    (h : recv s = .err e t) : exec i s = .next (t.respond (Response.error e)) := by
  rw [hi s hr, h]
  rfl

end Steps

/-- RECV makes nothing of a read completed on too short a stream (20_memory R46; log entry 3). -/
theorem recv_short {s : State} {as : List Answer} (ha : s.answers = .complete :: as)
    (h : (s.phase = .rxHeader ∧ s.rxStream.length < 10)
      ∨ (s.phase = .rxPayload ∧ s.rxStream.length < s.declLen.toNat)
      ∨ (s.phase = .rxChecksum ∧ s.rxStream = [])) : recv s = .wait s := by
  obtain ⟨hs, hn⟩ | ⟨hs, hn⟩ | ⟨hs, hn⟩ := h
  · rw [recv_rxHeader hs, recvHeader_short ha hn]
  · rw [recv_rxPayload hs, recvPayload_short ha hn]
  · rw [recv_rxChecksum hs, recvChecksum_short ha hn]

/-- Settles O25: the step of each of the four operations is RECV, which raises the error or waits, and an
error ends the step whatever would follow it. -/
theorem badFramesAreReported : Obligations.BadFramesAreReported := by
  intro s i as hi ha
  obtain ⟨g, hg⟩ := exists_resumes hi
  refine ⟨?_, ?_, fun hshort => ?_⟩
  · intro b0 b1 b2 b3 b4 b5 b6 b7 b8 b9 rest hs hr hm
    have hrecv := recvHeader_bad ha (by simp [hr]) (by rw [hr]; exact hm)
    rw [hg.err (State.receiving_of_phase (.inl hs)) ((recv_rxHeader hs).trans hrecv), hr]
    rfl
  · intro ck rest hs hr want hck
    have hrecv := recvChecksum_bad ha hr hck
    exact hg.err (State.receiving_of_phase (.inr (.inr hs))) ((recv_rxChecksum hs).trans hrecv)
  · refine hg.wait (State.receiving_of_phase ?_) (recv_short ha hshort)
    exact hshort.imp And.left (Or.imp And.left And.left)

/-! ## The bytes a Decode takes -/

/-- How far a Decode that found `bs` in the stream has come where it waits for a read, and the bytes it
has taken by then (40_frame_codec R104). -/
inductive DecodeProgress (bs : List Byte) (s : State) : Prop where
  | header (hs : s.phase = .rxHeader) (hr : s.rxStream = bs)
  | payload (hs : s.phase = .rxPayload) (hn : 10 ≤ bs.length) (hr : s.rxStream = bs.drop 10)
  | checksum (hs : s.phase = .rxChecksum) (hn : 10 + s.declLen.toNat ≤ bs.length)
      (hr : s.rxStream = bs.drop (10 + s.declLen.toNat))

/-- The bytes a Decode has taken of `bs`, by its outcome: the table of 40_frame_codec R107, and no error
but the three of R103. -/
def Flow.accounted (bs : List Byte) : Flow Packet → Prop
  | .run _ t =>
    11 + t.declLen.toNat ≤ bs.length ∧ t.rxStream = bs.drop (11 + t.declLen.toNat)
  | .err (.framing _ _ _ _) t => 10 ≤ bs.length ∧ t.rxStream = bs.drop 10
  | .err (.checksum _ _) t =>
    11 + t.declLen.toNat ≤ bs.length ∧ t.rxStream = bs.drop (11 + t.declLen.toNat)
  | .err (.transport .rxHeader) t => ∃ k, k ≤ 10 ∧ t.rxStream = bs.drop k
  | .err (.transport .rxPayload) t =>
    ∃ k, k ≤ t.declLen.toNat ∧ t.rxStream = bs.drop (10 + k)
  | .err (.transport .rxChecksum) t =>
    ∃ k, k ≤ 1 ∧ t.rxStream = bs.drop (10 + t.declLen.toNat + k)
  | .err _ _ => False
  | .wait t => DecodeProgress bs t
  | .stop _ => False

theorem recvHeader_accounted {s : State} (hs : s.phase = .rxHeader) :
    (recvHeader s).accounted s.rxStream := by
  rcases recvHeader_cases s with
    ⟨as, _, hn, _, h⟩ | ⟨as, _, hn, _, h⟩ | ⟨as, _, _, h⟩ | ⟨k, as, _, h⟩ | ⟨as, _, h⟩ | ⟨_, h⟩ <;>
    rw [h]
  · by_cases hz : (frontHeader s.rxStream).declLen = 0
    · have hz' : (frontHeader s.rxStream).declLen.toNat = 0 := by rw [hz]; rfl
      refine .checksum (if_pos hz) ?_ ?_
      · show 10 + (frontHeader s.rxStream).declLen.toNat ≤ _
        rwa [hz']
      · show _ = s.rxStream.drop (10 + (frontHeader s.rxStream).declLen.toNat)
        rw [hz']
    · exact .payload (if_neg hz) hn rfl
  · exact ⟨hn, rfl⟩
  · exact .header hs rfl
  · exact ⟨min k 10, Nat.min_le_right _ _, rfl⟩
  · exact .header hs rfl
  · exact .header hs rfl

theorem recvPayload_accounted {s : State} {bs : List Byte} (hs : s.phase = .rxPayload)
    (hn : 10 ≤ bs.length) (hr : s.rxStream = bs.drop 10) : (recvPayload s).accounted bs := by
  rcases recvPayload_cases s with
    ⟨as, _, hle, h⟩ | ⟨as, _, _, h⟩ | ⟨k, as, _, h⟩ | ⟨as, _, h⟩ | ⟨_, h⟩ <;> rw [h]
  · rw [hr, List.length_drop] at hle
    refine .checksum rfl ?_ ?_
    · show 10 + s.declLen.toNat ≤ _
      omega
    · show s.rxStream.drop s.declLen.toNat = _
      rw [hr, List.drop_drop]
  · exact .payload hs hn hr
  · refine ⟨min k s.declLen.toNat, Nat.min_le_right _ _, ?_⟩
    show s.rxStream.drop _ = _
    rw [hr, List.drop_drop]
  · exact .payload hs hn hr
  · exact .payload hs hn hr

theorem recvChecksum_accounted {s : State} {bs : List Byte} (hs : s.phase = .rxChecksum)
    (hn : 10 + s.declLen.toNat ≤ bs.length)
    (hr : s.rxStream = bs.drop (10 + s.declLen.toNat)) : (recvChecksum s).accounted bs := by
  have htaken {ck : Byte} {rest : List Byte} (h : s.rxStream = ck :: rest) :
      11 + s.declLen.toNat ≤ bs.length ∧ rest = bs.drop (11 + s.declLen.toNat) := by
    obtain ⟨hlt, _, hrest⟩ := drop_eq_cons (hr.symm.trans h)
    exact ⟨by omega, by rw [← hrest, Nat.add_right_comm]⟩
  rcases recvChecksum_cases s with
    ⟨as, ck, rest, _, hc, _, h⟩ | ⟨as, ck, rest, _, hc, _, h⟩ | ⟨as, _, _, h⟩ | ⟨k, as, _, h⟩
      | ⟨as, _, h⟩ | ⟨_, h⟩ <;> rw [h]
  · exact htaken hc
  · exact htaken hc
  · exact .checksum hs hn hr
  · refine ⟨min k 1, Nat.min_le_right _ _, ?_⟩
    show s.rxStream.drop _ = _
    rw [hr, List.drop_drop]
  · exact .checksum hs hn hr
  · exact .checksum hs hn hr

theorem recv_accounted {s : State} {bs : List Byte} (h : DecodeProgress bs s) :
    (recv s).accounted bs := by
  cases h with
  | header hs hr =>
    rw [recv_rxHeader hs, ← hr]
    exact recvHeader_accounted hs
  | payload hs hn hr =>
    rw [recv_rxPayload hs]
    exact recvPayload_accounted hs hn hr
  | checksum hs hn hr =>
    rw [recv_rxChecksum hs]
    exact recvChecksum_accounted hs hn hr

/-- The accounting of one transaction, carried over the transactions of a Decode. -/
theorem recvTimes_accounted {bs : List Byte} (n : Nat) {s : State} (h : DecodeProgress bs s) :
    (recvTimes n s).accounted bs := by
  induction n generalizing s with
  | zero => exact h
  | succ n ih =>
    have hrecv := recv_accounted h
    rw [recvTimes_succ]
    cases hx : recv s with
    | wait t =>
      rw [hx] at hrecv
      exact ih hrecv
    | run | err | stop =>
      rw [hx] at hrecv
      exact hrecv

/-- A Decode from its beginning: no step yet, or the header read issued and the rest accounted for. -/
theorem recvTimes_of_not_receiving (n : Nat) {s : State} (hr : s.receiving = false) :
    recvTimes n s = .wait s ∨ (recvTimes n s).accounted s.rxStream := by
  cases n with
  | zero => exact .inl rfl
  | succ n =>
    rw [recvTimes_succ, recv_of_not_receiving hr]
    exact .inr (recvTimes_accounted n (.header rfl rfl))

/-- Settles O23: each outcome's line of the table. -/
theorem decodeByteAccounting : Obligations.DecodeByteAccounting := by
  intro s n hr
  have hdone {x : Flow Packet} (hx : recvTimes n s = x) (hne : x ≠ .wait s) :
      x.accounted s.rxStream :=
    hx ▸ (recvTimes_of_not_receiving n hr).resolve_left (hx ▸ hne)
  refine ⟨fun p t hx => ?_, fun b0 b1 b2 b3 t hx => ?_, fun r c t hx => ?_, fun t hx => ?_,
    fun t hx => ?_, fun t hx => ?_⟩
  all_goals exact hdone hx (fun h => nomatch h)

/-! ## AWAIT_RESPONSE and the one-pass decoder -/

theorem Memory.writeBytes_nil (m : Memory) : m.writeBytes 0 [] = m := by
  simp [Memory.writeBytes, Memory.cells]

/-- Several steps and one more. -/
theorem repeatStep_snoc {f : State → Out} {n : Nat} {s t u : State}
    (hn : repeatStep f n s = .next t) (ht : f t = .next u) : repeatStep f (n + 1) s = .next u := by
  induction n generalizing s with
  | zero =>
    obtain rfl : s = t := Host.Outcome.next.inj hn
    exact repeatStep_succ ht 0
  | succ n ih =>
    cases hs : f s with
    | next v => exact (repeatStep_succ hs _).trans (ih ((repeatStep_succ hs n).symm.trans hn))
    | fault | refused =>
      rw [repeatStep, hs] at hn
      cases hn

/-- With no payload declared, the state after the header read is already the one before the checksum
read (40_frame_codec R104). -/
theorem headerRead_eq_payloadRead {s : State} (as : List Answer)
    (h : (frontHeader s.rxStream).declLen = 0) : s.headerRead as = s.payloadRead as := by
  simp [State.headerRead, State.payloadRead, frontPayload, h, Memory.writeBytes_nil]

/-- Past the header read, the payload RXPAY holds is the one the stream held. -/
theorem payloadRead_packet {s : State} (as : List Answer)
    (h : 10 + (frontHeader s.rxStream).declLen.toNat ≤ s.rxStream.length) :
    (s.payloadRead as).packet = frontPacket s.rxStream := by
  have hpl : (s.payloadRead as).rxPayloadBytes = frontPayload s.rxStream := by
    show (s.rxpay.writeBytes 0 (frontPayload s.rxStream)).readBytes 0
      (frontHeader s.rxStream).declLen.toNat = _
    rw [← frontPayload_length h, Memory.readBytes_writeBytes]
  rw [State.packet, hpl]
  rfl

theorem payloadRead_computedChecksum {s : State} (as : List Answer)
    (h : 10 + (frontHeader s.rxStream).declLen.toNat ≤ s.rxStream.length) :
    (s.payloadRead as).computedChecksum = frontChecksum s.rxStream := by
  rw [frontChecksum, ← payloadRead_packet as h]
  rfl

section Walk

variable {i : Instr} {g : Packet → State → Flow Result} {s : State} {as : List Answer}

/-- A good header is one step of an operation that receives (40_frame_codec R104). -/
theorem Resumes.reads_header {rest : List Answer} (hi : Resumes i g) (hs : s.phase = .rxHeader)
    (ha : s.answers = .complete :: rest) (hten : 10 ≤ s.rxStream.length)
    (hm : (frontHeader s.rxStream).marker = startMarker) :
    exec i s = .next (s.headerRead rest) :=
  hi.wait (State.receiving_of_phase (.inl hs))
    ((recv_rxHeader hs).trans (recvHeader_good ha hten hm))

/-- With its header and payload in the stream, an operation comes from the header read to the checksum
read in one step or two (40_frame_codec R104). -/
theorem Resumes.reaches_checksum (hi : Resumes i g) (hs : s.phase = .rxHeader)
    (ha : s.answers = .complete :: .complete :: .complete :: as)
    (hm : (frontHeader s.rxStream).marker = startMarker)
    (hlen : 10 + (frontHeader s.rxStream).declLen.toNat ≤ s.rxStream.length) :
    ∃ n ≤ 2, ∃ as', repeatStep (exec i) n s = .next (s.payloadRead (.complete :: as')) := by
  have hheader := hi.reads_header hs ha (by omega) hm
  by_cases hz : (frontHeader s.rxStream).declLen = 0
  · refine ⟨1, by omega, .complete :: as, ?_⟩
    rw [repeatStep_succ hheader 0, headerRead_eq_payloadRead _ hz]
    rfl
  · have hphase : (s.headerRead (.complete :: .complete :: as)).phase = .rxPayload := if_neg hz
    have hrecv := recvPayload_good (s := s.headerRead (.complete :: .complete :: as)) rfl (by
      show (frontHeader s.rxStream).declLen.toNat ≤ (s.rxStream.drop 10).length
      rw [List.length_drop]
      omega)
    have hpayload := hi.wait (State.receiving_of_phase (.inr (.inl hphase)))
      ((recv_rxPayload hphase).trans hrecv)
    refine ⟨2, by omega, as, ?_⟩
    rw [repeatStep_succ hheader 1, repeatStep_succ hpayload 0, State.payloadRead, ← List.drop_drop]
    rfl

/-- With a good header and too few bytes after it, an operation comes to a read that is not answered,
and has returned nothing (20_memory R46; log entry 3). -/
theorem Resumes.reaches_unanswered (hi : Resumes i g) (hs : s.phase = .rxHeader)
    (ha : s.answers = .complete :: .complete :: .complete :: as) (hten : 10 ≤ s.rxStream.length)
    (hm : (frontHeader s.rxStream).marker = startMarker)
    (hlen : s.rxStream.length < 11 + (frontHeader s.rxStream).declLen.toNat) :
    ∃ n ≤ 2, ∃ t, repeatStep (exec i) n s = .next t ∧ t.hostOut = s.hostOut ∧ t.waiting = true
      ∧ exec i t = .next t := by
  by_cases hpl : 10 + (frontHeader s.rxStream).declLen.toNat ≤ s.rxStream.length
  · obtain ⟨n, hn, as', hwalk⟩ := hi.reaches_checksum hs ha hm hpl
    refine ⟨n, hn, _, hwalk, rfl, rfl, hi.wait rfl (recv_short rfl (.inr (.inr ⟨rfl, ?_⟩)))⟩
    exact List.drop_eq_nil_of_le (by omega)
  · have hheader := hi.reads_header hs ha hten hm
    have hz : (frontHeader s.rxStream).declLen ≠ 0 := fun h => by
      rw [h] at hpl
      exact hpl hten
    have hphase : (s.headerRead (.complete :: .complete :: as)).phase = .rxPayload := if_neg hz
    refine ⟨1, by omega, _, repeatStep_succ hheader 0, rfl, by rw [State.waiting, hphase],
      hi.wait (State.receiving_of_phase (.inr (.inl hphase)))
        (recv_short rfl (.inr (.inl ⟨hphase, ?_⟩)))⟩
    show (s.rxStream.drop 10).length < (frontHeader s.rxStream).declLen.toNat
    rw [List.length_drop]
    omega

end Walk

/-- Settles O21: the issue of the header read, then case by case what the decoder can say: each read does
what the decoder does with the same bytes. -/
theorem awaitResponseRefinesFrameDecoder : Obligations.AwaitResponseRefinesFrameDecoder := by
  intro s as hmode hr ha
  have hg := awaitResponse_resumes
  obtain ⟨u, hu⟩ : ∃ u, u = s.setPhase .rxHeader := ⟨_, rfl⟩
  have hissue : exec .awaitResponse s = .next u := by
    rw [exec_awaitResponse_eq hmode, recv_of_not_receiving hr, hu]
    rfl
  have hs : u.phase = .rxHeader := by rw [hu]; rfl
  have hstream : u.rxStream = s.rxStream := by rw [hu]; rfl
  have hout : u.hostOut = s.hostOut := by rw [hu]; rfl
  have ha : u.answers = .complete :: .complete :: .complete :: as := by rw [hu]; exact ha
  rw [← hstream, ← hout]
  have hrec : u.receiving = true := State.receiving_of_phase (.inl hs)
  rcases decodePacket_cases u.rxStream with
    ⟨hlen, hd⟩ | ⟨hten, hm, hd⟩ | ⟨hten, hm, hlen, hd⟩ | ⟨ck, rest, hm, hdrop, hck, hd⟩
      | ⟨ck, rest, hm, hdrop, hck, hd⟩ <;> rw [hd]
  · exact ⟨1, u, by omega, repeatStep_succ hissue 0, rfl, by rw [State.waiting, hs],
      hg.wait hrec (recv_short ha (.inl ⟨hs, hlen⟩))⟩
  · have hbad := hg.err hrec ((recv_rxHeader hs).trans (recvHeader_bad ha hten hm))
    exact ⟨2, _, by omega, (repeatStep_succ hissue 1).trans (repeatStep_succ hbad 0),
      _, _, _, _, (frontHeader_marker hten).symm, hm, rfl, rfl, rfl⟩
  · obtain ⟨n, hn, t, hwalk, hstuck⟩ := hg.reaches_unanswered hs ha hten hm hlen
    exact ⟨n + 1, t, by omega, (repeatStep_succ hissue n).trans hwalk, hstuck⟩
  all_goals
    obtain ⟨hlt, _, hrest⟩ := drop_eq_cons hdrop
    obtain ⟨n, hn, as', hwalk⟩ := hg.reaches_checksum hs ha hm (Nat.le_of_lt hlt)
    have hwalk := (repeatStep_succ hissue n).trans hwalk
    have hcalc := payloadRead_computedChecksum (.complete :: as') (Nat.le_of_lt hlt)
  · have hgood := recvChecksum_good (s := u.payloadRead (.complete :: as')) rfl hdrop
      (hck.trans hcalc.symm)
    refine ⟨n + 2, _, by omega, repeatStep_snoc hwalk (hg.run rfl hgood), ?_, rfl, rfl⟩
    rw [payloadRead_packet _ (Nat.le_of_lt hlt)]
    rfl
  · have hbad := recvChecksum_bad (s := u.payloadRead (.complete :: as')) rfl hdrop
      fun h => hck (h.trans hcalc)
    refine ⟨n + 2, _, by omega, repeatStep_snoc hwalk (hg.err rfl hbad), ?_, ?_, rfl⟩
    · rw [hcalc]
      rfl
    · rw [← frontHeader_declLen, Nat.add_right_comm 10 1]
      exact hrest.symm

end Machine

end Sys2Proof

/-! # The family 41_command_catalog: the catalog and the wire commands

First the catalog and ISSUE's check against it (O6). Then what a wire command is once its write completes
(O11). Then the operation in REQ beside the wire command in TXBUF (O13): in TX both are the sending of
one packet, because the operation's continuation is the one `afterSend` finds by REQ's OP. -/

namespace Sys2Proof

/-- The catalog, code by code (41_command_catalog R136). -/
theorem known_eq_true_iff (c : Byte) :
    known c = true ↔ c = 0x02 ∨ c = 0x0F ∨ c = 0x10 ∨ c = 0x12 ∨ c = 0x16 := by
  simp only [known, Bool.or_eq_true, beq_iff_eq, or_assoc, cmdGetDistance, cmdStop, cmdAcknowledge,
    cmdGetCorrectionCoefficients, cmdConfigureAddress]

/-- The command of a catalogued packet is no host operation (41_command_catalog R130). -/
theorem isHostOp_of_wireInstr {p : Packet} {i : Instr} (h : wireInstr p = .ok i) :
    Machine.isHostOp i = false := by
  unfold wireInstr at h
  iterate 5
    split at h
    · cases h; rfl
  cases h

namespace Machine

/-- ISSUE of an uncatalogued code is refused before its mode check and its SEND (42_session_ops R150,
R157). -/
theorem issueFlow_unknown {cmd : Byte} (addr : Byte) (off : Half) (payload : List Byte) (s : State)
    (hk : known cmd = false) :
    issueFlow cmd addr off payload s = .err (.unknownCommand cmd) s :=
  if_neg (Bool.eq_false_iff.mp hk)

/-- Settles O6: the catalog's definition, the packet a Decode returns, and ISSUE's first check. -/
theorem catalogIsFiveCodes : Obligations.CatalogIsFiveCodes := by
  refine ⟨known_eq_true_iff, fun _ => rfl, fun c addr off pl s hk => ?_⟩
  exact congrArg Flow.finish (issueFlow_unknown addr off pl s hk)

/-! ## What follows the write -/

/-- An operation that does not receive ends once its frame is written (42_session_ops R166). -/
theorem afterSend_ends (P : Params) {s : State} (h2 : s.req.op ≠ 0x02) (h3 : s.req.op ≠ 0x03) :
    afterSend P s = .run .empty s := by
  rw [afterSend, if_neg h2, if_neg h3]

/-- CONFIGURE_ADDRESS goes on to receive its address count (42_session_ops R159). -/
theorem afterSend_configureAddress (P : Params) {s : State} (h : s.req.op = 0x02) :
    afterSend P s = (recv s).bind (interpretAddress P) := if_pos h

/-- GET_COEFFICIENTS goes on to receive its calibration (42_session_ops R160). -/
theorem afterSend_getCoefficients (P : Params) {s : State} (h : s.req.op = 0x03) :
    afterSend P s = (recv s).bind (interpretCalibration P) := by
  rw [afterSend, h]
  rfl

/-- Where the mode allows its command, a wire command is its SEND and what the operation in REQ does next
(41_command_catalog, opening). -/
theorem sendFrame_of_legal (P : Params) {p : Packet} {s : State}
    (hl : sendLegal s.mode p.cmd = true) :
    sendFrame P p s = (send p s).bind fun _ u => afterSend P u := if_pos hl

/-! ## The write that completes -/

/-- A wire command whose write completes, for an operation that does not receive; `m` is the mode that
the transition rule leaves (42_session_ops R152). -/
theorem exec_wireInstr_complete {s : State} {p : Packet} {i : Instr} {as : List Answer} (m : Mode)
    (hi : wireInstr p = .ok i) (hl : sendLegal s.mode p.cmd = true) (hs : s.phase = .tx)
    (hp : p.payload.length ≤ maxPayload) (ha : s.answers = .complete :: as)
    (h2 : s.req.op ≠ 0x02) (h3 : s.req.op ≠ 0x03) (hm : (s.written p as).mode = m) :
    exec i s = .next
      { s with
        mode := m, phase := .ready, answers := as, link := s.link ++ encodePacket p
        hostOut := s.hostOut ++ [⟨0, 0, none, some .empty⟩] } := by
  have hend : afterSend Config.params (s.written p as) = .run .empty (s.written p as) :=
    afterSend_ends _ h2 h3
  rw [exec_of_wireInstr hi, sendFrame_of_legal _ hl, send_complete hp hs ha, Flow.bind_run, hend,
    ← hm]
  rfl

/-- Settles O11: each of the five is a wire command whose write completes; the commands differ in the
mode that allows them and in the mode they leave. -/
theorem wireCommandsSendTheirFrame : Obligations.WireCommandsSendTheirFrame := by
  intro s addr off pl as hs hp ha h2 h3 done
  refine ⟨?stop, fun hidle => ?_⟩
  case stop =>
    have hl : sendLegal s.mode cmdStop = true := by cases s.mode <;> rfl
    exact exec_wireInstr_complete (p := ⟨addr, cmdStop, off, pl⟩) .idle rfl hl hs hp ha h2 h3 rfl
  have hl (cmd : Byte) : sendLegal s.mode cmd = true := by rw [hidle]; rfl
  exact ⟨
    exec_wireInstr_complete (p := ⟨addr, cmdGetDistance, off, pl⟩) .streaming rfl (hl _) hs hp ha
      h2 h3 rfl,
    exec_wireInstr_complete (p := ⟨addr, cmdAcknowledge, off, pl⟩) .idle rfl (hl _) hs hp ha
      h2 h3 hidle,
    exec_wireInstr_complete (p := ⟨addr, cmdGetCorrectionCoefficients, off, pl⟩) .idle rfl (hl _) hs hp
      ha h2 h3 hidle,
    exec_wireInstr_complete (p := ⟨addr, cmdConfigureAddress, off, pl⟩) .idle rfl (hl _) hs hp ha
      h2 h3 hidle⟩

/-! ## The operation in REQ and the wire command in TXBUF -/

/-- What follows a SEND runs only from the state of a completed write, so only there does it matter. -/
theorem send_bind_congr {β : Type} {p : Packet} {s : State} {f g : Unit → State → Flow β}
    (h : ∀ as, f () (s.written p as) = g () (s.written p as)) :
    (send p s).bind f = (send p s).bind g := by
  cases hx : send p s with
  | run a u =>
    obtain ⟨_, as, rfl⟩ := send_run hx
    exact h as
  | wait | err | stop => rfl

/-- The SEND of an operation that does not receive (42_session_ops R157, R161, R162). -/
theorem send_ends_eq_afterSend (P : Params) {p : Packet} {s : State} {op : Byte}
    (hop : s.req.op = op) (h2 : op ≠ 0x02) (h3 : op ≠ 0x03) :
    ((send p s).bind fun _ u => .run .empty u) = (send p s).bind fun _ u => afterSend P u :=
  send_bind_congr fun as =>
    (afterSend_ends (s := s.written p as) P (ne_of_eq_of_ne hop h2) (ne_of_eq_of_ne hop h3)).symm

/-- In TX the operation in REQ, where the mode allows its packet, is the sending of that packet: its own
continuation is the one `afterSend` finds by REQ's OP (42_session_ops R154, R166). -/
theorem exec_requested_eq_sendFrame {s : State} {i : Instr} {p : Packet} (hs : s.phase = .tx)
    (hi : s.requested = .ok i) (hp : s.packetSent i = some p) (hk : known p.cmd = true)
    (hl : sendLegal s.mode p.cmd = true) : exec i s = (sendFrame Config.params p s).finish := by
  obtain ⟨hhost, hop⟩ := decodeRequest_op (requested_ok.mp hi)
  have hm : modeAllows s.mode i = true := (modeAllows_eq_sendLegal hp _).trans hl
  have hr : s.receiving = false := by rw [State.receiving, hs]
  rw [sendFrame_of_legal _ hl]
  cases i with
  | frameGetDistance | frameStop | frameAcknowledge | frameGetCorrectionCoefficients
  | frameConfigureAddress => cases hhost
  | awaitResponse | receiveFrame | setDeviceAddress => cases hp
  | issue =>
    cases hp
    rw [exec_issue_eq _ hk hl]
    exact congrArg Flow.finish
      (send_ends_eq_afterSend _ (op := 0x00) hop.symm (by decide) (by decide))
  | beginStream =>
    cases hp
    have hidle : s.mode = .idle := beq_iff_eq.mp hm
    show (beginStreamFlow s).finish = _
    rw [beginStreamFlow, requireMode_of_eq 0x04 hidle]
    exact congrArg Flow.finish
      (send_ends_eq_afterSend _ (op := 0x04) hop.symm (by decide) (by decide))
  | stopStream =>
    cases hp
    exact congrArg Flow.finish
      (send_ends_eq_afterSend _ (op := 0x05) hop.symm (by decide) (by decide))
  | configureAddress =>
    cases hp
    have hidle : s.mode = .idle := beq_iff_eq.mp hm
    show (configureAddressFlow Config.params s).finish = _
    rw [configureAddressFlow, hr, requireMode_of_eq 0x02 hidle]
    simp only [Bool.false_eq_true, if_false, Flow.bind_run]
    exact congrArg Flow.finish (send_bind_congr fun as =>
      (afterSend_configureAddress (s := s.written _ as) _ hop.symm).symm)
  | getCoefficients =>
    cases hp
    have hidle : s.mode = .idle := beq_iff_eq.mp hm
    show (getCoefficientsFlow Config.params s).finish = _
    rw [getCoefficientsFlow, hr, requireMode_of_eq 0x03 hidle]
    simp only [Bool.false_eq_true, if_false, Flow.bind_run]
    exact congrArg Flow.finish (send_bind_congr fun as =>
      (afterSend_getCoefficients (s := s.written _ as) _ hop.symm).symm)

/-- Settles O13: the invariant puts the frame of the packet due in TXBUF, so the wire command there and
the operation in REQ both send that packet. -/
theorem wireCommandRunsItsOperation : Obligations.WireCommandRunsItsOperation := by
  intro s i hinv hs hi
  have hph := ((State.inv_iff s).mp hinv).2
  simp only [State.phaseOk, hs] at hph
  obtain ⟨p, hdue, hk, hl, hlen, hframe⟩ := (State.txOk_iff s).mp hph
  obtain ⟨j, hj, hp⟩ := State.packetDue_some hdue
  obtain rfl : i = j := Except.ok.inj (hi.symm.trans hj)
  obtain ⟨w, hw⟩ := wireInstr_of_known p hk
  refine ⟨w, ?_, isHostOp_of_wireInstr hw, ?_⟩
  · simp only [State.outgoing, hframe, decodeWire_encodePacket p hlen hw]
  · rw [exec_of_wireInstr hw, exec_requested_eq_sendFrame hs hi hp hk hl]

end Machine

end Sys2Proof

/-! # The family 42_session_ops: the host operations

First the operations that send: their SEND step by step (O10, O7, O8, O12), SET_DEVICE_ADDRESS (O9) and
the routing check (O35). Then a whole RECV: the three reads of a packet's frame, and with them every
operation that receives, from its first step to its response (O17 to O20, O24, O27 to O29). Then the
checks before any transaction (O37, O38), the frames (O41 to O43), and the machine's steps (O46, O47, O49,
O50). -/

namespace Sys2Proof

open Machine

/-- The eleven bytes of a frame with offset 0 and no payload (30_encoding R60, R67; 41_command_catalog
R131, R132). -/
theorem encodePacket_empty (addr cmd : Byte) :
    encodePacket ⟨addr, cmd, 0, []⟩
      = [0xAA, 0xAA, 0xAA, 0xAA, addr, cmd, 0, 0, 0, 0, addr + cmd] := by
  have hck : checksum addr cmd 0#16 [] = addr + cmd := by
    apply BitVec.eq_of_toNat_eq
    simp [checksum]
  have hlow : lowByte 0#16 = 0#8 := by decide
  have hhigh : highByte 0#16 = 0#8 := by decide
  simp [encodePacket_eq, hck, hlow, hhigh]

/-- The wire command of the packet it sends (41_command_catalog R131 to R135). -/
theorem wireInstr_of_packetSent {s : State} {i : Instr} {p : Packet} (hi : isHostOp i = false)
    (hp : s.packetSent i = some p) : wireInstr p = .ok i := by
  cases i with
  | frameGetDistance | frameStop | frameAcknowledge | frameGetCorrectionCoefficients
  | frameConfigureAddress =>
    cases hp
    rfl
  | issue | awaitResponse | configureAddress | getCoefficients | beginStream | stopStream
  | receiveFrame | setDeviceAddress => cases hi

namespace Machine

/-! ## The operations that send -/

/-- Before TX, SEND puts the frame in TXBUF and issues its TxWrite (42_session_ops R154). -/
theorem send_issue {s : State} {p : Packet} (hp : p.payload.length ≤ maxPayload)
    (hs : s.phase ≠ .tx) : send p s = .wait (s.loadTx (encodePacket p)) := by
  rw [send_eq p s hp, if_neg hs]

/-- The mode rule of ISSUE (42_session_ops R151). -/
theorem sendLegal_of_idle_or_stop {m : Mode} {cmd : Byte} (h : m = .idle ∨ cmd = 0x0F) :
    sendLegal m cmd = true := by
  obtain rfl | rfl := h
  · rfl
  · cases m <;> rfl

/-- Settles O10: an ISSUE whose checks pass is its SEND, which waits before TX and runs through where its
write completes. -/
theorem issueSendsThePacket : Obligations.IssueSendsThePacket := by
  intro s cmd addr off pl hk hlen hmode f
  rw [exec_issue_eq ⟨addr, cmd, off, pl⟩ hk (sendLegal_of_idle_or_stop hmode)]
  refine ⟨fun hs => ?_, fun as hs ha => ?_⟩
  · rw [send_issue hlen hs]
    rfl
  · rw [send_complete hlen hs ha]
    rfl

/-- Settles O7: in Idle BEGIN_STREAM is the ISSUE of GetDistance to DEV_ADDR. -/
theorem beginStreamEntersStreaming : Obligations.BeginStreamEntersStreaming := by
  intro s hm f
  have hf : f = encodePacket ⟨s.devAddr, 0x02, 0, []⟩ := (encodePacket_empty _ _).symm
  rw [(typedSendsActLikeIssue s).1 hm, hf]
  exact issueSendsThePacket s 0x02 s.devAddr 0 [] rfl (by decide) (.inl hm)

/-- Settles O8: in either mode STOP_STREAM is the ISSUE of Stop to DEV_ADDR. -/
theorem stopStreamLeavesStreaming : Obligations.StopStreamLeavesStreaming := by
  intro s f
  have hf : f = encodePacket ⟨s.devAddr, 0x0F, 0, []⟩ := (encodePacket_empty _ _).symm
  rw [(typedSendsActLikeIssue s).2, hf]
  exact issueSendsThePacket s 0x0F s.devAddr 0 [] rfl (by decide) (.inr rfl)

/-- Where REQ holds CONFIGURE_ADDRESS or GET_COEFFICIENTS, the header read follows the write
(42_session_ops R159, R160, R166). -/
theorem afterSend_receives (P : Params) {s : State} (hs : s.phase = .tx)
    (hop : s.req.op = 0x02 ∨ s.req.op = 0x03) :
    afterSend P s = .wait (s.setPhase .rxHeader) := by
  obtain h | h := hop
  · rw [afterSend_configureAddress P h, recv_of_tx hs]
    rfl
  · rw [afterSend_getCoefficients P h, recv_of_tx hs]
    rfl

/-- Settles O12: a wire command is its SEND, which runs through, and then the header read that the
operation in REQ issues. -/
theorem wireCommandContinuesItsOperation : Obligations.WireCommandContinuesItsOperation := by
  intro s i p as hi hp hm hs hlen ha hop
  have hl : sendLegal s.mode p.cmd = true := (modeAllows_eq_sendLegal hp _).symm.trans hm
  rw [exec_of_wireInstr (wireInstr_of_packetSent hi hp), sendFrame_of_legal _ hl,
    send_complete hlen hs ha, Flow.bind_run, afterSend_receives (s := s.written p as) _ hs hop]
  rfl

/-- Settles O9: the mode check passes, and the write is the whole operation. -/
theorem setDeviceAddressWritesDevAddr : Obligations.SetDeviceAddressWritesDevAddr := by
  intro s a hm
  show (setDeviceAddressFlow a s).finish = _
  rw [setDeviceAddressFlow, requireMode_of_eq 0x07 hm]
  rfl

/-! ## The routing check and the responses -/

/-- What the routing check refuses (42_session_ops R156). -/
theorem routingError_eq (P : Params) (p : Packet) (c : Byte) (a : Option Byte) :
    routingError P p c a =
      if P.checkResponseRouting = true ∧ (p.cmd ≠ c ∨ (a ≠ none ∧ a ≠ some p.addr)) then
        some (.routingMismatch p.addr p.cmd a c)
      else none := by
  simp [routingError]

/-- Settles O35: the three cases of the check's condition. -/
theorem routingCheck : Obligations.RoutingCheck := by
  intro P p c a
  rw [routingError_eq]
  refine ⟨fun hoff => ?_, fun _ hc ha => ?_, fun hon hbad => ?_⟩
  · exact if_neg fun h => by simp [hoff] at h
  · refine if_neg fun ⟨_, h⟩ => ?_
    obtain h | ⟨hn, hs⟩ := h
    · exact h hc
    · exact ha.elim hn hs
  · refine if_pos ⟨hon, ?_⟩
    obtain hc | ⟨b, rfl, hb⟩ := hbad
    · exact .inl hc
    · exact .inr ⟨by simp, fun h => hb (Option.some.inj h).symm⟩

end Machine

end Sys2Proof

namespace Sys2Proof.Machine

/-! ## What each operation makes of its packet -/

/-- The response a payload decoder's value or error becomes (43_payload_decoders R207; 60_exceptions
R237). -/
def Response.ofDecoder : Except ErrorInfo Result → Response
  | .ok r => Response.ok r
  | .error e => Response.error e

/-- The interpretation of a response: RoutingMismatch, or what the decoder says (42_session_ops R156). -/
theorem interpretWith_finish (P : Params) (c : Byte) (a : Option Byte)
    (d : Packet → Except ErrorInfo Result) (p : Packet) (s : State) :
    (interpretWith P c a d p s).finish = .next (s.respond
      (if P.checkResponseRouting = true ∧ (p.cmd ≠ c ∨ (a ≠ none ∧ a ≠ some p.addr)) then
        ⟨3, 4, some (.routingMismatch p.addr p.cmd a c), none⟩
      else .ofDecoder (d p))) := by
  rw [interpretWith, routingError_eq]
  by_cases h : P.checkResponseRouting = true ∧ (p.cmd ≠ c ∨ (a ≠ none ∧ a ≠ some p.addr))
  · rw [if_pos h, if_pos h]
    rfl
  · rw [if_neg h, if_neg h]
    cases d p <;> rfl

theorem ofDecoder_addressCount (a : Byte) :
    Response.ofDecoder (addressCount a) =
      if a = 0x01 then ⟨0, 0, none, some (.deviceCount 1)⟩
      else if a = 0x03 then ⟨0, 0, none, some (.deviceCount 2)⟩
      else if a = 0x07 then ⟨0, 0, none, some (.deviceCount 3)⟩
      else ⟨3, 1, some (.badAddressPattern a), none⟩ := by
  unfold addressCount
  split_ifs <;> rfl

/-- CONFIGURE_ADDRESS ends with its response to the packet (42_session_ops R159). -/
theorem interpretAddress_finish (P : Params) (p : Packet) (s : State) :
    (interpretAddress P p s).finish = .next (s.respond (addressResponse P p)) := by
  rw [interpretAddress, interpretWith_finish, ofDecoder_addressCount, addressResponse]
  simp only [ne_eq, not_true_eq_false, false_and, or_false, cmdConfigureAddress]

theorem ofDecoder_decodeCalibration (pl : List Byte) :
    Response.ofDecoder (decodeCalibration pl) =
      if pl.length ≠ 18 then
        ⟨3, 2, some (.unexpectedPayloadLength (BitVec.ofNat 16 pl.length) 18), none⟩
      else
        ⟨0, 0, none, some (.coefficients (long pl 0) (long pl 4) (long pl 8) (long pl 12)
          (half pl 16))⟩ := by
  unfold decodeCalibration
  by_cases h : pl.length = 18
  · rw [if_pos h, if_neg (not_not_intro h)]
    rfl
  · rw [if_neg h, if_pos h]
    rfl

/-- The routing condition where an address is expected. -/
theorem address_mismatch_iff (a b : Byte) : (some a ≠ none ∧ some a ≠ some b) ↔ b ≠ a := by
  simp [eq_comm]

/-- GET_COEFFICIENTS ends with its response to the packet (42_session_ops R160). -/
theorem interpretCalibration_finish (P : Params) (p : Packet) (s : State) :
    (interpretCalibration P p s).finish
      = .next (s.respond (calibrationResponse P s.devAddr p)) := by
  rw [interpretCalibration, interpretWith_finish, ofDecoder_decodeCalibration]
  simp only [address_mismatch_iff]
  rfl

/-- A sample's fields from its own two bytes (43_payload_decoders R205, R206). -/
theorem distanceSample_eq (P : Params) (pl : List Byte) (expected : Half) (k : Nat) :
    distanceSample P pl expected.toNat k =
      let v := (pl.getD (4 + 2 * k) 0).toNat + 256 * (pl.getD (5 + 2 * k) 0).toNat
      ⟨BitVec.ofNat 16 k, BitVec.ofNat 9 (v / 128), BitVec.ofNat 7 (v % 128),
        P.angleTransform (BitVec.ofNat 16 k) expected⟩ := by
  have hnext : 4 + 2 * k + 1 = 5 + 2 * k := by omega
  simp only [distanceSample, sampleDistance, sampleConfidence, half, le16_toNat, hnext,
    BitVec.ofNat_toNat, BitVec.setWidth_eq]

/-- RECEIVE_FRAME's response, with its samples as the model computes them (42_session_ops R163;
43_payload_decoders R203). -/
theorem distanceResponse_eq (P : Params) (a : Byte) (expected : Half) (p : Packet) :
    distanceResponse P a expected p =
      if P.checkResponseRouting = true ∧ (p.cmd ≠ 0x02 ∨ p.addr ≠ a) then
        ⟨3, 4, some (.routingMismatch p.addr p.cmd (some a) 0x02), none⟩
      else if p.payload.length < 4 ∨ p.payload.length % 2 = 1 then
        ⟨3, 2, some (.unexpectedPayloadLength (BitVec.ofNat 16 p.payload.length)
          (BitVec.ofNat 18 (4 + 2 * expected.toNat))), none⟩
      else if (p.payload.length - 4) / 2 ≠ expected.toNat then
        ⟨3, 3, some (.pointCountMismatch (BitVec.ofNat 16 ((p.payload.length - 4) / 2)) expected),
          none⟩
      else ⟨0, 0, none, some (.distanceFrame (long p.payload 0) expected
        ((List.range ((p.payload.length - 4) / 2)).map
          (distanceSample P p.payload ((p.payload.length - 4) / 2))))⟩ := by
  unfold distanceResponse
  by_cases hc : (p.payload.length - 4) / 2 = expected.toNat
  · simp only [hc, funext (distanceSample_eq P p.payload expected)]
    rfl
  · simp only [if_pos hc]

theorem ofDecoder_decodeDistance (P : Params) (pl : List Byte) (expected : Half) :
    Response.ofDecoder (decodeDistance P pl expected) =
      if pl.length < 4 ∨ pl.length % 2 = 1 then
        ⟨3, 2, some (.unexpectedPayloadLength (BitVec.ofNat 16 pl.length)
          (BitVec.ofNat 18 (4 + 2 * expected.toNat))), none⟩
      else if (pl.length - 4) / 2 ≠ expected.toNat then
        ⟨3, 3, some (.pointCountMismatch (BitVec.ofNat 16 ((pl.length - 4) / 2)) expected), none⟩
      else ⟨0, 0, none, some (.distanceFrame (long pl 0) expected
        ((List.range ((pl.length - 4) / 2)).map (distanceSample P pl ((pl.length - 4) / 2))))⟩ := by
  have hlen : (pl.length < 4 ∨ (pl.length - 4) % 2 ≠ 0) ↔ (pl.length < 4 ∨ pl.length % 2 = 1) := by
    omega
  unfold decodeDistance
  simp only [hlen]
  by_cases hbad : pl.length < 4 ∨ pl.length % 2 = 1
  · rw [if_pos hbad, if_pos hbad]
    rfl
  rw [if_neg hbad, if_neg hbad]
  by_cases hc : (pl.length - 4) / 2 = expected.toNat
  · rw [if_neg (not_not_intro hc), if_neg (not_not_intro hc), hc]
    simp only [BitVec.ofNat_toNat, BitVec.setWidth_eq]
    rfl
  · rw [if_pos hc, if_pos hc]
    rfl

/-- RECEIVE_FRAME ends with its response to the packet (42_session_ops R163). -/
theorem interpretDistance_finish (P : Params) (expected : Half) (p : Packet) (s : State) :
    (interpretDistance P expected p s).finish
      = .next (s.respond (distanceResponse P s.devAddr expected p)) := by
  rw [interpretDistance, interpretWith_finish, ofDecoder_decodeDistance, distanceResponse_eq]
  simp only [address_mismatch_iff, cmdGetDistance]

/-! ## The three reads of a packet's frame -/

/-- The header of a packet's frame, field by field (30_encoding R60). -/
theorem Header.ofPacket_eq (p : Packet) :
    Header.ofPacket p = ⟨0xAA, 0xAA, 0xAA, 0xAA, p.addr, p.cmd, lowByte p.off, highByte p.off,
      lowByte (BitVec.ofNat 16 p.payload.length), highByte (BitVec.ofNat 16 p.payload.length)⟩ :=
  rfl

theorem Header.ofPacket_declLen (p : Packet) :
    (Header.ofPacket p).declLen = BitVec.ofNat 16 p.payload.length := le16_low_high _

theorem frontHeader_headerBytes (p : Packet) (rest : List Byte) :
    frontHeader (headerBytes p ++ rest) = Header.ofPacket p := rfl

/-- A payload that fits has no byte just where its length field is zero (30_encoding R65). -/
theorem length_field_eq_zero_iff {pl : List Byte} (h : pl.length ≤ maxPayload) :
    BitVec.ofNat 16 pl.length = 0 ↔ pl = [] := by
  rw [← BitVec.toNat_inj, length_field _ h]
  exact List.length_eq_zero_iff

/-- The state with a packet's header read, the next read issued (40_frame_codec R104). -/
def State.gotHeader (s : State) (p : Packet) (rest : List Byte) (as : List Answer) : State :=
  { s with
    phase := if p.payload = [] then .rxChecksum else .rxPayload
    hdr := Header.ofPacket p, declLen := BitVec.ofNat 16 p.payload.length
    rxStream := rest, answers := as }

/-- The state with a packet's payload read, the checksum read issued (40_frame_codec R104). -/
def State.gotPayload (s : State) (p : Packet) (rest : List Byte) (as : List Answer) : State :=
  { s with
    phase := .rxChecksum, rxpay := s.rxpay.writeBytes 0 p.payload, rxStream := rest, answers := as }

/-- The state with a packet's checksum read and found right (40_frame_codec R104). -/
def State.gotChecksum (s : State) (p : Packet) (rest : List Byte) (as : List Answer) : State :=
  { s with
    phase := .interpret, rxCk := checksum p.addr p.cmd p.off p.payload
    calcCk := checksum p.addr p.cmd p.off p.payload, rxStream := rest, answers := as }

section FrameReads

variable {s : State} {p : Packet} {rest : List Byte} {as : List Answer}

theorem recv_gotHeader (hp : p.payload.length ≤ maxPayload) (hs : s.phase = .rxHeader)
    (ha : s.answers = .complete :: as) (hr : s.rxStream = headerBytes p ++ rest) :
    recv s = .wait (s.gotHeader p rest as) := by
  have hten : 10 ≤ s.rxStream.length := by simp [hr]
  have hfront : frontHeader s.rxStream = Header.ofPacket p := by rw [hr, frontHeader_headerBytes]
  rw [recv_rxHeader hs, recvHeader_good ha hten (by rw [hfront]; rfl), State.headerRead, hfront,
    Header.ofPacket_declLen, hr]
  simp only [length_field_eq_zero_iff hp]
  rfl

theorem recv_gotPayload (hp : p.payload.length ≤ maxPayload) (hs : s.phase = .rxPayload)
    (hn : s.declLen = BitVec.ofNat 16 p.payload.length) (ha : s.answers = .complete :: as)
    (hr : s.rxStream = p.payload ++ rest) : recv s = .wait (s.gotPayload p rest as) := by
  have hlen : s.declLen.toNat = p.payload.length := by rw [hn, length_field _ hp]
  rw [recv_rxPayload hs, recvPayload_good ha (by simp [hlen, hr]), hlen, hr, List.take_left,
    List.drop_left]
  rfl

/-- With a packet in HDR and RXPAY, that packet is what Decode returns (40_frame_codec R104). -/
theorem State.packet_eq (hh : s.hdr = Header.ofPacket p) (hpl : s.rxPayloadBytes = p.payload) :
    s.packet = p := by
  rw [State.packet, hh, hpl, Header.ofPacket_eq, Header.off, le16_low_high]

theorem recv_gotChecksum (hs : s.phase = .rxChecksum) (hh : s.hdr = Header.ofPacket p)
    (hpl : s.rxPayloadBytes = p.payload) (ha : s.answers = .complete :: as)
    (hr : s.rxStream = checksum p.addr p.cmd p.off p.payload :: rest) :
    recv s = .run p (s.gotChecksum p rest as) := by
  have hpacket := State.packet_eq hh hpl
  have hck : s.computedChecksum = checksum p.addr p.cmd p.off p.payload := by
    rw [← hpacket]
    rfl
  rw [recv_rxChecksum hs, recvChecksum_good ha hr hck.symm, hpacket, hck]
  rfl

/-- Settles O24: each completed read is RECV's, and after the last of them each operation ends with its
own response to the packet. -/
theorem resumedReadsFinishTheFrame : Obligations.ResumedReadsFinishTheFrame := by
  intro s p rest as hp ha n h ck
  constructor
  · intro i hi
    obtain ⟨g, hg⟩ := exists_resumes hi
    refine ⟨fun hs hr => ?_, fun hs hn hr => ?_⟩
    · exact hg.wait (State.receiving_of_phase (.inl hs)) (recv_gotHeader hp hs ha hr)
    · exact hg.wait (State.receiving_of_phase (.inr (.inl hs))) (recv_gotPayload hp hs hn ha hr)
  · intro hs hh _ hpl hr done
    have hrec := State.receiving_of_phase (s := s) (.inr (.inr hs))
    have hrecv := recv_gotChecksum hs hh hpl ha hr
    exact ⟨awaitResponse_resumes.run hrec hrecv,
      (configureAddress_resumes.run hrec hrecv).trans (interpretAddress_finish _ _ _),
      (getCoefficients_resumes.run hrec hrecv).trans (interpretCalibration_finish _ _ _),
      fun expected =>
        ((receiveFrame_resumes expected).run hrec hrecv).trans (interpretDistance_finish _ _ _ _)⟩

/-! ## A whole RECV -/

theorem repeatStep_one (f : State → Out) (s : State) : repeatStep f 1 s = f s := by
  rw [repeatStep]
  cases f s <;> rfl

/-- A frame is its header, its payload and its checksum byte (30_encoding R60). -/
theorem encodePacket_append (p : Packet) (rest : List Byte) :
    encodePacket p ++ rest
      = headerBytes p ++ (p.payload ++ checksum p.addr p.cmd p.off p.payload :: rest) := by
  simp [encodePacket]

/-- While it receives, a step function is RECV and then `g`, for any configuration (42_session_ops R158
to R160, R163). -/
def ResumesAs (f : State → Out) (g : Packet → State → Flow Result) : Prop :=
  ∀ s : State, s.receiving = true → f s = ((recv s).bind g).finish

variable {f : State → Out} {g : Packet → State → Flow Result}

theorem ResumesAs.wait {t : State} (hf : ResumesAs f g) (hr : s.receiving = true)
    (h : recv s = .wait t) : f s = .next t := by
  rw [hf s hr, h]
  rfl

/-- From the checksum read, with the packet in HDR and RXPAY, one step ends the operation. -/
theorem ResumesAs.reads_checksum (hf : ResumesAs f g) (hs : s.phase = .rxChecksum)
    (hh : s.hdr = Header.ofPacket p) (hpl : s.rxPayloadBytes = p.payload)
    (ha : s.answers = .complete :: as)
    (hr : s.rxStream = checksum p.addr p.cmd p.off p.payload :: rest) :
    repeatStep f 1 s = (g p (s.gotChecksum p rest as)).finish := by
  rw [repeatStep_one, hf s (State.receiving_of_phase (.inr (.inr hs))),
    recv_gotChecksum hs hh hpl ha hr]
  rfl

/-- The payload just read is the one read back from RXPAY (20_memory R42). -/
theorem gotPayload_rxPayloadBytes {bs : List Byte} (hp : p.payload.length ≤ maxPayload)
    (hn : s.declLen = BitVec.ofNat 16 p.payload.length) :
    (s.gotPayload p bs as).rxPayloadBytes = p.payload := by
  show (s.rxpay.writeBytes 0 p.payload).readBytes 0 s.declLen.toNat = _
  rw [hn, length_field _ hp, Memory.readBytes_writeBytes]

/-- From the header read, with a packet's frame at the front of the stream, as many steps as there are
reads end the operation with what it makes of the packet (40_frame_codec R104, R110). -/
theorem ResumesAs.reads_frame (hf : ResumesAs f g) (hp : p.payload.length ≤ maxPayload)
    (hs : s.phase = .rxHeader) (hr : s.rxStream = encodePacket p ++ rest)
    (ha : s.answers = readAnswers p ++ as) :
    repeatStep f (readAnswers p).length s = (g p (s.received p rest as)).finish := by
  rw [encodePacket_append] at hr
  have hrec : s.receiving = true := State.receiving_of_phase (.inl hs)
  by_cases hpl : p.payload = []
  · rw [readAnswers, if_pos hpl] at ha ⊢
    have hheader := hf.wait hrec (recv_gotHeader hp hs ha hr)
    have hphase : (s.gotHeader p (p.payload ++ checksum p.addr p.cmd p.off p.payload :: rest)
        (.complete :: as)).phase = .rxChecksum := if_pos hpl
    have hmem : s.rxpay.writeBytes 0 p.payload = s.rxpay := by rw [hpl, Memory.writeBytes_nil]
    have hread := hf.reads_checksum (rest := rest) (as := as) hphase rfl
      (by simp [State.gotHeader, State.rxPayloadBytes, hpl, Memory.readBytes]) rfl
      (by simp [State.gotHeader, hpl])
    rw [State.received, hmem]
    exact (repeatStep_succ hheader 1).trans hread
  · rw [readAnswers, if_neg hpl] at ha ⊢
    have hheader := hf.wait hrec (recv_gotHeader hp hs ha hr)
    have hphase : (s.gotHeader p (p.payload ++ checksum p.addr p.cmd p.off p.payload :: rest)
        (.complete :: .complete :: as)).phase = .rxPayload := if_neg hpl
    have hpayload := hf.wait (State.receiving_of_phase (.inr (.inl hphase)))
      (recv_gotPayload hp hphase rfl rfl rfl)
    refine (repeatStep_succ hheader 2).trans ((repeatStep_succ hpayload 1).trans ?_)
    exact hf.reads_checksum (p := p) (rest := rest) (as := as) rfl rfl
      (gotPayload_rxPayloadBytes hp rfl) rfl rfl

end FrameReads

/-! ## The operations that receive, from their first step to their response -/

/-- An operation that only receives, in its own mode (42_session_ops R158, R163). -/
def receiveFlow (m : Mode) (op : Byte) (g : Packet → State → Flow Result) (s : State) : Flow Result :=
  (if s.receiving then .run () s else requireMode m op s).bind fun _ s => (recv s).bind g

/-- An operation that sends a packet and then receives (42_session_ops R159, R160). -/
def exchangeFlow (op : Byte) (q : State → Packet) (g : Packet → State → Flow Result) (s : State) :
    Flow Result :=
  (if s.receiving then .run () s
    else (requireMode .idle op s).bind fun _ s => send (q s) s).bind fun _ s => (recv s).bind g

theorem awaitFlow_eq :
    awaitFlow = receiveFlow .idle 0x01 fun p s => .run (packetResult p) s := rfl

theorem receiveFrameFlow_eq (P : Params) (expected : Half) :
    receiveFrameFlow P expected = receiveFlow .streaming 0x06 (interpretDistance P expected) := rfl

theorem configureAddressFlow_eq (P : Params) :
    configureAddressFlow P
      = exchangeFlow 0x02 (fun _ => ⟨0x00, cmdConfigureAddress, 0, []⟩) (interpretAddress P) := rfl

theorem getCoefficientsFlow_eq (P : Params) :
    getCoefficientsFlow P
      = exchangeFlow 0x03 (fun s => ⟨s.devAddr, cmdGetCorrectionCoefficients, 0, []⟩)
          (interpretCalibration P) := rfl

theorem receiveFlow_resumesAs (m : Mode) (op : Byte) (g : Packet → State → Flow Result) :
    ResumesAs (fun u => (receiveFlow m op g u).finish) g := fun s hr => by
  simp only [receiveFlow, if_pos hr, Flow.bind_run]

theorem exchangeFlow_resumesAs (op : Byte) (q : State → Packet) (g : Packet → State → Flow Result) :
    ResumesAs (fun u => (exchangeFlow op q g u).finish) g := fun s hr => by
  simp only [exchangeFlow, if_pos hr, Flow.bind_run]

section WholeOperations

variable {s : State} {p : Packet} {rest : List Byte} {as : List Answer}
  {g : Packet → State → Flow Result}

/-- An operation that only receives: the issue of the header read, and the reads (42_session_ops R155). -/
theorem receiveFlow_reads_frame {m : Mode} {op : Byte} (hm : s.mode = m) (hrec : s.receiving = false)
    (hp : p.payload.length ≤ maxPayload) (hr : s.rxStream = encodePacket p ++ rest)
    (ha : s.answers = readAnswers p ++ as) :
    repeatStep (fun u => (receiveFlow m op g u).finish) ((readAnswers p).length + 1) s
      = (g p (s.received p rest as)).finish := by
  have hissue : (receiveFlow m op g s).finish = .next (s.setPhase .rxHeader) := by
    rw [receiveFlow, requireMode_of_eq op hm, ite_self, Flow.bind_run, recv_of_not_receiving hrec]
    rfl
  rw [repeatStep_succ hissue]
  exact (receiveFlow_resumesAs m op g).reads_frame hp rfl hr ha

/-- An operation that sends and then receives: Encode and the TxWrite, its completion with the issue of
the header read, and the reads (42_session_ops R154, R155, R166). -/
theorem exchangeFlow_reads_frame {op : Byte} {q : State → Packet} (hm : s.mode = .idle)
    (hstart : s.starting = true) (hq : ∀ u : State, u.devAddr = s.devAddr → q u = q s)
    (hqp : (q s).payload.length ≤ maxPayload) (hp : p.payload.length ≤ maxPayload)
    (hr : s.rxStream = encodePacket p ++ rest) (ha : s.answers = .complete :: (readAnswers p ++ as)) :
    repeatStep (fun u => (exchangeFlow op q g u).finish) ((readAnswers p).length + 2) s
      = (g p ((s.sent (q s) (readAnswers p ++ as)).received p rest as)).finish := by
  have hphase : s.phase ≠ .tx ∧ s.receiving = false := by
    obtain h | h := s.starting_iff.mp hstart <;> simp [State.receiving, h]
  have hissue : (exchangeFlow op q g s).finish = .next (s.loadTx (encodePacket (q s))) := by
    rw [exchangeFlow, hphase.2, requireMode_of_eq op hm]
    simp only [Bool.false_eq_true, if_false, Flow.bind_run, send_issue hqp hphase.1]
    rfl
  have hwrite : (exchangeFlow op q g (s.loadTx (encodePacket (q s)))).finish
      = .next ((s.sent (q s) (readAnswers p ++ as)).setPhase .rxHeader) := by
    have hsend := send_complete (s := s.loadTx (encodePacket (q s))) hqp rfl ha
    have hrecv := recv_of_tx (s := (s.loadTx (encodePacket (q s))).written (q s) (readAnswers p ++ as))
      rfl
    rw [exchangeFlow, requireMode_of_eq op (s := s.loadTx (encodePacket (q s))) hm]
    simp only [State.receiving, State.loadTx_phase, Bool.false_eq_true, if_false, Flow.bind_run,
      hq (s.loadTx (encodePacket (q s))) rfl, hsend, hrecv]
    rfl
  rw [repeatStep_succ hissue, repeatStep_succ hwrite]
  exact (exchangeFlow_resumesAs op q g).reads_frame hp rfl hr rfl

end WholeOperations

/-- Settles O17: AWAIT_RESPONSE only receives, and its response is the packet. -/
theorem awaitResponseReturnsThePacket : Obligations.AwaitResponseReturnsThePacket := by
  intro s p rest as hm hrec hp hr ha
  show repeatStep (fun u => (awaitFlow u).finish) _ s = _
  rw [awaitFlow_eq, receiveFlow_reads_frame hm hrec hp hr ha]
  rfl

/-- Settles O27: CONFIGURE_ADDRESS sends its packet, receives, and answers by `addressResponse`. -/
theorem configureAddressChecksInOrder : Obligations.ConfigureAddressChecksInOrder := by
  intro P s p rest as hm hstart hp hr ha
  rw [configureAddressFlow_eq,
    exchangeFlow_reads_frame hm hstart (fun _ _ => rfl) (by simp) hp hr ha, interpretAddress_finish]
  rfl

/-- Settles O18: the routing check passes, and each of the three patterns is one branch of O27. -/
theorem configureAddressCountsDevices : Obligations.ConfigureAddressCountsDevices := by
  intro s p n rest as hm hstart hp hr ha hroute hn
  have hpass : ¬ (Config.params.checkResponseRouting = true ∧ p.cmd ≠ 0x16) := fun ⟨hon, hc⟩ =>
    hroute.elim hc fun hoff => Bool.false_ne_true (hoff.symm.trans hon)
  refine (configureAddressChecksInOrder Config.params s p rest as hm hstart hp hr ha).trans ?_
  rw [if_neg hpass]
  simp only [List.mem_cons, Prod.mk.injEq, List.not_mem_nil, or_false] at hn
  obtain ⟨haddr, rfl⟩ | ⟨haddr, rfl⟩ | ⟨haddr, rfl⟩ := hn <;> rw [haddr] <;> rfl

/-- Settles O28: GET_COEFFICIENTS sends its packet, receives, and answers by `calibrationResponse`. -/
theorem getCoefficientsChecksInOrder : Obligations.GetCoefficientsChecksInOrder := by
  intro P s p rest as hm hstart hp hr ha b
  rw [getCoefficientsFlow_eq,
    exchangeFlow_reads_frame hm hstart (fun _ h => by rw [h]) (by simp) hp hr ha,
    interpretCalibration_finish]
  rfl

/-- Where an expected address and command match or are not checked, routing does not fail
(42_session_ops R156). -/
theorem routing_passes {p : Packet} {a c : Byte}
    (h : (p.cmd = c ∧ p.addr = a) ∨ Config.checkResponseRouting = false) :
    ¬ (Config.params.checkResponseRouting = true ∧ (p.cmd ≠ c ∨ p.addr ≠ a)) := by
  rintro ⟨hon, hne⟩
  obtain ⟨hc, ha⟩ | hoff := h
  · exact hne.elim (fun h => h hc) fun h => h ha
  · exact Bool.false_ne_true (hoff.symm.trans hon)

/-- Settles O19: the routing and length checks of O28 pass. -/
theorem getCoefficientsReturnsCalibration : Obligations.GetCoefficientsReturnsCalibration := by
  intro s p rest as hm hstart hlen hr ha hroute b
  refine (getCoefficientsChecksInOrder Config.params s p rest as hm hstart (by omega) hr ha).trans ?_
  rw [if_neg (routing_passes hroute), if_neg (not_not_intro hlen)]

/-- RECEIVE_FRAME only receives, and answers by `distanceResponse` (42_session_ops R163). -/
theorem receiveFrameFlow_reads_frame (P : Params) {s : State} (expected : Half) {p : Packet}
    {rest : List Byte} {as : List Answer} (hm : s.mode = .streaming) (hrec : s.receiving = false)
    (hp : p.payload.length ≤ maxPayload) (hr : s.rxStream = encodePacket p ++ rest)
    (ha : s.answers = readAnswers p ++ as) :
    repeatStep (fun u => (receiveFrameFlow P expected u).finish) ((readAnswers p).length + 1) s
      = .next ((s.received p rest as).respond (distanceResponse P s.devAddr expected p)) := by
  rw [receiveFrameFlow_eq, receiveFlow_reads_frame hm hrec hp hr ha, interpretDistance_finish]
  rfl

/-- Settles O29: `distanceResponse` with the samples as the model computes them; 18 bits hold the
expected length whole (log entry 19). -/
theorem receiveFrameChecksInOrder : Obligations.ReceiveFrameChecksInOrder := by
  intro P s expected p rest as hm hrec hp hr ha n count
  refine ⟨BitVec.ofNat 18 (4 + 2 * expected.toNat), ?_, ?_⟩
  · have hlt := expected.isLt
    rw [BitVec.toNat_ofNat]
    omega
  · rw [receiveFrameFlow_reads_frame P expected hm hrec hp hr ha, distanceResponse_eq]

/-- Settles O20: the routing, length and count checks of `distanceResponse` pass. -/
theorem receiveFrameReturnsSamples : Obligations.ReceiveFrameReturnsSamples := by
  intro s expected p rest as hm hrec hlen hp hr ha hroute b v
  have hcount : (p.payload.length - 4) / 2 = expected.toNat := by omega
  refine (receiveFrameFlow_reads_frame Config.params expected hm hrec hp hr ha).trans ?_
  rw [distanceResponse, if_neg (routing_passes hroute), if_neg (by omega),
    if_neg (not_not_intro hcount), hcount]
  rfl

end Sys2Proof.Machine

namespace Sys2Proof.Machine

/-! ## The checks before any transaction -/

theorem requireMode_of_ne {m : Mode} {s : State} (op : Byte) (h : s.mode ≠ m) :
    requireMode m op s = .err (.stateError op s.mode) s := if_neg h

theorem receiveFlow_refused {m : Mode} {s : State} (op : Byte) (g : Packet → State → Flow Result)
    (hr : s.receiving = false) (h : s.mode ≠ m) :
    receiveFlow m op g s = .err (.stateError op s.mode) s := by
  rw [receiveFlow, hr, requireMode_of_ne op h]
  rfl

theorem exchangeFlow_refused {s : State} (op : Byte) (q : State → Packet)
    (g : Packet → State → Flow Result) (hr : s.receiving = false) (h : s.mode ≠ .idle) :
    exchangeFlow op q g s = .err (.stateError op s.mode) s := by
  rw [exchangeFlow, hr, requireMode_of_ne op h]
  rfl

/-- Where the mode table refuses an instruction, its first step is the StateError (42_session_ops
R151; 60_exceptions R235). -/
theorem exec_refused_by_mode {s : State} {i : Instr} (hr : s.receiving = false)
    (hk : ∀ cmd addr off pl, i = .issue cmd addr off pl → known cmd = true)
    (hm : modeAllows s.mode i = false) :
    exec i s = .next (s.respond (Response.error
      (.stateError (if isHostOp i then (requestOf i).op else s.req.op) s.mode))) := by
  have hlegal {p : Packet} (hp : s.packetSent i = some p) : ¬ sendLegal s.mode p.cmd = true := by
    rw [← modeAllows_eq_sendLegal hp, hm]
    exact Bool.false_ne_true
  have hne {m : Mode} (h : modeAllows s.mode i = (s.mode == m)) : s.mode ≠ m :=
    beq_eq_false_iff_ne.mp (h.symm.trans hm)
  cases i with
  | frameGetDistance | frameStop | frameAcknowledge | frameGetCorrectionCoefficients
  | frameConfigureAddress => exact congrArg Flow.finish (if_neg (hlegal rfl))
  | issue cmd addr off pl =>
    show (issueFlow cmd addr off pl s).finish = _
    rw [issueFlow, if_pos (hk _ _ _ _ rfl), if_neg (hlegal rfl)]
    rfl
  | awaitResponse => exact congrArg Flow.finish (receiveFlow_refused _ _ hr (hne rfl))
  | configureAddress => exact congrArg Flow.finish (exchangeFlow_refused _ _ _ hr (hne rfl))
  | getCoefficients =>
    exact congrArg Flow.finish
      (exchangeFlow_refused _ (fun u => ⟨u.devAddr, _, 0, []⟩) _ hr (hne rfl))
  | beginStream =>
    show (beginStreamFlow s).finish = _
    rw [beginStreamFlow, requireMode_of_ne _ (hne rfl)]
    rfl
  | stopStream => cases hm
  | receiveFrame => exact congrArg Flow.finish (receiveFlow_refused _ _ hr (hne rfl))
  | setDeviceAddress a =>
    show (setDeviceAddressFlow a s).finish = _
    rw [setDeviceAddressFlow, requireMode_of_ne _ (hne rfl)]
    rfl

/-- Only an ISSUE can name a command that is not catalogued (41_command_catalog R130; 42_session_ops
R150). -/
theorem packetSent_known {s : State} {i : Instr} {p : Packet}
    (hk : ∀ cmd addr off pl, i = .issue cmd addr off pl → known cmd = true)
    (hp : s.packetSent i = some p) : known p.cmd = true := by
  cases i with
  | issue =>
    cases hp
    exact hk _ _ _ _ rfl
  | frameGetDistance | frameStop | frameAcknowledge | frameGetCorrectionCoefficients
  | frameConfigureAddress | configureAddress | getCoefficients | beginStream | stopStream =>
    cases hp
    rfl
  | awaitResponse | receiveFrame | setDeviceAddress => cases hp

/-- SEND raises no error but its TransportError (42_session_ops R154). -/
theorem send_err {p : Packet} {s u : State} {e : ErrorInfo} (h : send p s = .err e u) :
    e = .transport .tx := by
  unfold send at h
  split at h
  · split at h
    · rcases sendWrite_cases p s with
        ⟨as, _, hw⟩ | ⟨k, as, _, hw⟩ | ⟨as, _, hw⟩ | ⟨_, hw⟩ <;> rw [hw] at h <;> cases h
      rfl
    · cases h
  · cases h

/-- An instruction that passes its checks and has not begun to receive raises no error but the
TransportError of its SEND. -/
theorem OpStep.err_of_allowed {s u : State} {i : Instr} {x : Flow Result} {e : ErrorInfo}
    (h : OpStep s i x) (hm : modeAllows s.mode i = true)
    (hk : ∀ p, s.packetSent i = some p → known p.cmd = true) (hr : s.receiving = false)
    (hx : x = .err e u) : e = .transport .tx := by
  cases h with
  | refused e' why =>
    obtain hm' | ⟨p, hp, hk'⟩ := why
    · exact absurd (hm'.symm.trans hm) Bool.false_ne_true
    · exact absurd (hk'.symm.trans (hk p hp)) Bool.false_ne_true
  | sends p f hp hf =>
    cases hs : send p s with
    | run _ v =>
      rw [hs, Flow.bind_run] at hx
      have hv : v.phase = .tx := by
        obtain ⟨htx, as, rfl⟩ := send_run hs
        exact htx
      obtain hend | ⟨g, _, hrecv⟩ := hf v
      · rw [hend] at hx
        cases hx
      · rw [hrecv, recv_of_tx hv] at hx
        cases hx
    | wait v | stop =>
      rw [hs] at hx
      cases hx
    | err e' v =>
      rw [hs] at hx
      cases hx
      exact send_err hs
  | receives g hs hg =>
    rw [recv_of_not_receiving hr] at hx
    cases hx
  | setsAddress a hi => cases hx

/-! ## What no instruction changes -/

/-- What no instruction changes before its response: REQ, the host port and the platform's input
(10_state R24; 42_session_ops R165). -/
def State.hostKept (s t : State) : Prop :=
  t.req = s.req ∧ t.hostIn = s.hostIn ∧ t.platform = s.platform ∧ t.hostOut = s.hostOut

theorem State.hostKept_refl (s : State) : s.hostKept s := ⟨rfl, rfl, rfl, rfl⟩

theorem State.sendKept.hostKept {p : Packet} {s t : State} (h : s.sendKept p t) : s.hostKept t := by
  obtain ⟨_, _, hreq, _, _, _, _, _, _, hi, ho, hp, _⟩ := h
  exact ⟨hreq, hi, hp, ho⟩

theorem State.recvKept.hostKept {s t : State} (h : s.recvKept t) : s.hostKept t := by
  obtain ⟨_, _, hreq, hi, ho, hp, _⟩ := h
  exact ⟨hreq, hi, hp, ho⟩

theorem OpStep.hostKept {s : State} {i : Instr} {x : Flow Result} (h : OpStep s i x) :
    x.all s.hostKept := by
  cases h with
  | refused e why => exact s.hostKept_refl
  | sends p f hp hf =>
    refine Flow.all_bind _ f (send_kept p s) (fun _ h => h.hostKept) fun _ u hu => ?_
    obtain hend | ⟨g, _, hrecv⟩ := hf u
    · rw [hend]
      exact hu.hostKept
    · rw [hrecv, recv_of_tx hu.1]
      exact hu.hostKept
  | receives g hs hg =>
    exact Flow.all_bind _ g (recv_kept s) (fun _ h => h.hostKept) fun q u hu =>
      Flow.all_imp _ (hg q u) fun _ hv => hv ▸ hu.hostKept
  | setsAddress a hi => exact s.hostKept_refl

/-- No instruction writes REQ, takes a request or reads the platform's input. -/
theorem exec_inputs {i : Instr} {s t : State} (h : exec i s = .next t) :
    t.req = s.req ∧ t.hostIn = s.hostIn ∧ t.platform = s.platform := by
  obtain ⟨x, hx, hexec⟩ := exec_opStep i s
  have hkept := hx.hostKept
  rcases Flow.finish_next (hexec ▸ h) with ⟨r, u, rfl, rfl⟩ | rfl | ⟨e, u, rfl, rfl⟩ <;>
    obtain ⟨hreq, hi, hp, _⟩ := hkept <;> exact ⟨hreq, hi, hp⟩

/-- Settles O37: a refused instruction is its StateError, and one that is allowed raises at most the
TransportError of its SEND. -/
theorem modeTableIsEnforced : Obligations.ModeTableIsEnforced := by
  intro s i hr hk op
  refine ⟨exec_refused_by_mode hr hk, fun hm t o m ht hout => ?_⟩
  obtain ⟨x, hx, hexec⟩ := exec_opStep i s
  have hkept := hx.hostKept
  rcases Flow.finish_next (hexec ▸ ht) with ⟨r, u, rfl, rfl⟩ | rfl | ⟨e, u, rfl, rfl⟩ <;>
    obtain ⟨_, _, _, ho⟩ := hkept
  · simp [ho, Response.ok] at hout
  · simp [ho] at hout
  · obtain rfl := hx.err_of_allowed hm (fun p hp => packetSent_known hk hp) hr rfl
    simp [ho, Response.error] at hout

end Sys2Proof.Machine

namespace Sys2Proof

open Machine

/-- A request with OP above 7 names no operation (42_session_ops R150). -/
theorem decodeRequest_unknownOp {r : Request} (h : 0x07 < r.op.toNat) :
    decodeRequest r = .error (.unknownOp r.op) := if_pos h

/-- A request with a field it does not use is refused next (42_session_ops R150). -/
theorem decodeRequest_reservedField {r : Request} (hop : r.op.toNat ≤ 0x07)
    (h : r.reservedNonzero = true) : decodeRequest r = .error (.reservedField r.op) := by
  rw [decodeRequest, if_neg (Nat.not_lt.mpr hop), if_pos h]

/-- An ISSUE uses every field but RSV (30_encoding R70). -/
theorem decodeRequest_issue {r : Request} (hop : r.op = 0x00) (hrsv : r.rsv = 0) :
    decodeRequest r = .ok (.issue r.a r.b r.off r.payload) := by
  have hres : r.reservedNonzero = false := by
    simp [Request.reservedNonzero_eq_false_iff, hop, hrsv]
  simp [decodeRequest, hop, hres]

namespace Machine

/-! ## Accepting a request -/

theorem step_eq_blockStep {s : State} (hp : s.platform = []) : step s = blockStep s := by
  rw [step, hp]

/-- In READY, with a whole request at the host port, a step accepts and runs it (42_session_ops R165). -/
theorem blockStep_accepts {s : State} {r : Request} {rest : List Byte} (hs : s.phase = .ready)
    (hr : takeRequest s.hostIn = some (r, rest)) : blockStep s = runRequest (s.latch r rest) := by
  simp only [blockStep, hs, hr]

theorem runRequest_of_ok {s : State} {i : Instr} (h : decodeRequest s.req = .ok i) :
    runRequest s = exec i s := by
  simp only [runRequest, State.requested, h]

theorem runRequest_of_error {s : State} {e : DecodeError} (h : decodeRequest s.req = .error e) :
    runRequest s = .next (s.respond (Response.error (requestError s.req.op e))) := by
  simp only [runRequest, State.requested, h]
  rfl

/-- A response to the request just accepted shows the request in REQ and at the host port, and nothing
else (42_session_ops R165). -/
theorem latch_respond {s : State} (hs : s.phase = .ready) (r : Request) (rest : List Byte)
    (resp : Response) :
    (s.latch r rest).respond resp
      = { s with req := r, hostIn := rest, hostOut := s.hostOut ++ [resp] } := by
  simp only [State.respond, State.latch, ← hs]

/-- Settles O38: the request is accepted and decoded, and the first check it fails is the response. -/
theorem malformedRequestsAreRefused : Obligations.MalformedRequestsAreRefused := by
  intro s r rest hp hs hr refused
  have hstep {sub : Byte} {e : ErrorInfo}
      (h : runRequest (s.latch r rest)
        = .next ((s.latch r rest).respond ⟨6, sub, some e, none⟩)) : refused sub e := by
    show step s = _
    rw [step_eq_blockStep hp, blockStep_accepts hs hr, h, latch_respond hs]
  refine ⟨fun hop => ?_, fun hop hres => ?_, fun hop hrsv hk => ?_⟩
  · exact hstep (runRequest_of_error (s := s.latch r rest) (decodeRequest_unknownOp hop))
  · have hres : r.reservedNonzero = true := by
      by_contra hf
      obtain ⟨hrsv, ha, hb, hoff, hlen⟩ :=
        (Request.reservedNonzero_eq_false_iff r).mp (Bool.eq_false_iff.mpr hf)
      tauto
    exact hstep (runRequest_of_error (s := s.latch r rest) (decodeRequest_reservedField hop hres))
  · obtain ⟨_, _, hunknown⟩ := catalogIsFiveCodes
    exact hstep ((runRequest_of_ok (s := s.latch r rest) (decodeRequest_issue hop hrsv)).trans
      (hunknown _ _ _ _ _ hk))

/-! ## Frames: what a step leaves alone -/

/-- What an instruction that sends `p` leaves alone in one step of its SEND (42_session_ops R154;
20_memory R41). -/
def State.senderKept (p : Packet) (s t : State) : Prop :=
  t.devAddr = s.devAddr ∧ t.req = s.req ∧ t.hdr = s.hdr ∧ t.declLen = s.declLen
  ∧ t.rxCk = s.rxCk ∧ t.calcCk = s.calcCk
  ∧ t.hostIn = s.hostIn ∧ t.rxStream = s.rxStream ∧ t.platform = s.platform
  ∧ (∀ a, t.rxpay.read a = s.rxpay.read a)
  ∧ (∀ a, (encodePacket p).length ≤ a → t.txbuf.read a = s.txbuf.read a)
  ∧ (s.phase ≠ .tx → t.link = s.link ∧ t.mode = s.mode ∧ t.answers = s.answers)
  ∧ (s.phase = .tx → (∀ a, t.txbuf.read a = s.txbuf.read a)
      ∧ (t.mode = s.mode ∨ (p.cmd = 0x02 ∧ t.mode = .streaming)
        ∨ (p.cmd = 0x0F ∧ t.mode = .idle)))

/-- A step that changes nothing but PHASE and the responses leaves all of it alone. -/
theorem State.senderKept_refl (p : Packet) (s : State) : s.senderKept p s :=
  ⟨rfl, rfl, rfl, rfl, rfl, rfl, rfl, rfl, rfl, fun _ => rfl, fun _ _ => rfl,
    fun _ => ⟨rfl, rfl, rfl⟩, fun _ => ⟨fun _ => rfl, .inl rfl⟩⟩

theorem State.sendKept.senderKept {p : Packet} {s t : State} (h : s.sendKept p t) :
    s.senderKept p t := by
  obtain ⟨_, hdev, hreq, hhdr, hlen, hck, hcalc, hpay, hrx, hin, _, hplat, hissue, hanswer⟩ := h
  refine ⟨hdev, hreq, hhdr, hlen, hck, hcalc, hin, hrx, hplat, fun a => by rw [hpay], fun a ha => ?_,
    fun hs => ?_, fun hs => ?_⟩
  · by_cases hs : s.phase = .tx
    · rw [(hanswer hs).1]
    · rw [(hissue hs).1, Memory.read_writeBytes_outside _ _ _ ha]
  · obtain ⟨_, hlink, hans, hmode⟩ := hissue hs
    exact ⟨hlink, hmode, hans⟩
  · obtain ⟨htx, _, _, hmode⟩ := hanswer hs
    exact ⟨fun a => by rw [htx], hmode.imp_right And.left⟩

/-- A SEND and what the operation does after it: it ends, or only issues its first read. -/
theorem send_bind_senderKept (p : Packet) (s : State) {f : Unit → State → Flow Result}
    (hf : EndsOrReceives f) : ((send p s).bind f).all (s.senderKept p) := by
  refine Flow.all_bind _ f (send_kept p s) (fun _ h => h.senderKept) fun _ u hu => ?_
  obtain hend | ⟨g, _, hrecv⟩ := hf u
  · rw [hend]
    exact hu.senderKept
  · rw [hrecv, recv_of_tx hu.1]
    exact hu.senderKept

/-- A response touches nothing that a frame speaks of. -/
theorem senderKept_finish {p : Packet} {s t : State} {x : Flow Result}
    (hx : x.all (s.senderKept p)) (h : x.finish = .next t) : s.senderKept p t :=
  Flow.all_finish hx (fun _ _ hu => hu) h

theorem sendFrame_senderKept (P : Params) (p : Packet) (s : State) :
    (sendFrame P p s).all (s.senderKept p) := by
  unfold sendFrame
  split
  · exact send_bind_senderKept p s (afterSend_endsOrReceives P)
  · exact s.senderKept_refl p

theorem issueFlow_senderKept (cmd addr : Byte) (off : Half) (pl : List Byte) (s : State) :
    (issueFlow cmd addr off pl s).all (s.senderKept ⟨addr, cmd, off, pl⟩) := by
  unfold issueFlow
  split
  · split
    · exact send_bind_senderKept _ s endsOrReceives_empty
    · exact s.senderKept_refl _
  · exact s.senderKept_refl _

theorem beginStreamFlow_senderKept (s : State) :
    (beginStreamFlow s).all (s.senderKept ⟨s.devAddr, cmdGetDistance, 0, []⟩) := by
  unfold beginStreamFlow
  rcases requireMode_cases .idle 0x04 s with ⟨_, h⟩ | ⟨_, h⟩ <;> rw [h]
  · exact send_bind_senderKept _ s endsOrReceives_empty
  · exact s.senderKept_refl _

/-- Settles O41: each of the three is refused or is a SEND after which it ends. -/
theorem sendingOperationsFrame : Obligations.SendingOperationsFrame := by
  intro s t i p hi hp ht
  obtain rfl | rfl | ⟨cmd, addr, off, pl, rfl⟩ := hi <;> obtain rfl := Option.some.inj hp
  · exact senderKept_finish (beginStreamFlow_senderKept s) ht
  · exact senderKept_finish (x := stopStreamFlow s)
      (send_bind_senderKept _ s endsOrReceives_empty) ht
  · exact senderKept_finish (issueFlow_senderKept cmd addr off pl s) ht

/-- Settles O43: a wire command is refused or is a SEND and what the operation in REQ does after it. -/
theorem wireCommandsFrame : Obligations.WireCommandsFrame := by
  intro s t i p hi hp ht
  rw [exec_of_wireInstr (wireInstr_of_packetSent hi hp)] at ht
  exact senderKept_finish (sendFrame_senderKept Config.params p s) ht

/-- What an operation that receives leaves alone in one step (42_session_ops R155; 40_frame_codec R104;
20_memory R42). -/
def State.receiverKept (i : Instr) (s t : State) : Prop :=
  t.mode = s.mode ∧ t.devAddr = s.devAddr ∧ t.req = s.req
  ∧ t.hostIn = s.hostIn ∧ t.platform = s.platform
  ∧ (s.receiving = true ∨ s.packetSent i = none →
      t.link = s.link ∧ ∀ a, t.txbuf.read a = s.txbuf.read a)
  ∧ (s.phase = .tx → ∀ a, t.txbuf.read a = s.txbuf.read a)
  ∧ (s.phase ≠ .tx → t.link = s.link)
  ∧ (∀ p, s.packetSent i = some p →
      ∀ a, (encodePacket p).length ≤ a → t.txbuf.read a = s.txbuf.read a)
  ∧ (s.phase ≠ .rxHeader → t.hdr = s.hdr ∧ t.declLen = s.declLen)
  ∧ (s.phase ≠ .rxChecksum → t.rxCk = s.rxCk ∧ t.calcCk = s.calcCk)
  ∧ (s.phase ≠ .rxPayload ∨ t.phase ≠ .rxChecksum → ∀ a, t.rxpay.read a = s.rxpay.read a)
  ∧ (∀ a, s.declLen.toNat ≤ a → t.rxpay.read a = s.rxpay.read a)

/-- A step that changes nothing but PHASE and the responses leaves all of it alone. -/
theorem State.receiverKept_same (i : Instr) (s : State) (ph : Phase) (out : List Response) :
    s.receiverKept i { s with phase := ph, hostOut := out } :=
  ⟨rfl, rfl, rfl, rfl, rfl, fun _ => ⟨rfl, fun _ => rfl⟩, fun _ _ => rfl, fun _ => rfl,
    fun _ _ _ _ => rfl, fun _ => ⟨rfl, rfl⟩, fun _ => ⟨rfl, rfl⟩, fun _ _ => rfl, fun _ _ => rfl⟩

/-- RXPAY changes only in the step from the payload read to the checksum read (40_frame_codec R104). -/
theorem State.recvKept.rxpay_eq {s t : State} (h : s.recvKept t)
    (hph : s.phase ≠ .rxPayload ∨ t.phase ≠ .rxChecksum) : t.rxpay = s.rxpay := by
  obtain ⟨_, _, _, _, _, _, _, _, _, _, _, _, hpay, _⟩ := h
  exact hpay hph

/-- The frame of RECV is that of an operation that receives, whatever PHASE it ends in, if RXPAY has
changed only where that is RX_CHECKSUM. -/
theorem State.recvKept.receiverKept {s u : State} (i : Instr) (h : s.recvKept u)
    {ph : Phase} (out : List Response)
    (hpay : s.phase ≠ .rxPayload ∨ ph ≠ .rxChecksum → u.rxpay = s.rxpay) :
    s.receiverKept i { u with phase := ph, hostOut := out } := by
  obtain ⟨hm, hdev, hreq, hin, _, hplat, htx, hlink, _, _, hpayHigh, hhdr, _, hck⟩ := h
  have htx' : ∀ a, u.txbuf.read a = s.txbuf.read a := fun a => by rw [htx]
  exact ⟨hm, hdev, hreq, hin, hplat, fun _ => ⟨hlink, htx'⟩, fun _ => htx', fun _ => hlink,
    fun _ _ a _ => htx' a, hhdr, hck, fun hc a => congrArg (Memory.read · a) (hpay hc), hpayHigh⟩

/-- The frame of a SEND that leaves MODE is that of an operation that sends and then receives. -/
theorem State.senderKept.receiverKept {s t : State} {i : Instr} {p : Packet}
    (h : s.senderKept p t) (hp : s.packetSent i = some p) (hr : s.receiving = false)
    (h2 : p.cmd ≠ 0x02) (hf : p.cmd ≠ 0x0F) : s.receiverKept i t := by
  obtain ⟨hdev, hreq, hhdr, hlen, hck, hcalc, hin, _, hplat, hpay, htx, hissue, hanswer⟩ := h
  have hmode : t.mode = s.mode := by
    by_cases hs : s.phase = .tx
    · obtain hm | ⟨hc, _⟩ | ⟨hc, _⟩ := (hanswer hs).2
      · exact hm
      · exact absurd hc h2
      · exact absurd hc hf
    · obtain ⟨_, hm, _⟩ := hissue hs
      exact hm
  refine ⟨hmode, hdev, hreq, hin, hplat, fun hc => ?_, fun hs => (hanswer hs).1,
    fun hs => (hissue hs).1, fun q hq => ?_, fun _ => ⟨hhdr, hlen⟩, fun _ => ⟨hck, hcalc⟩,
    fun _ => hpay, fun a _ => hpay a⟩
  · simp [hr, hp] at hc
  · obtain rfl : p = q := Option.some.inj (hp.symm.trans hq)
    exact htx

/-- The step in which RECV returns a packet or raises an error does not write RXPAY: the payload read,
where it completes, issues the checksum read (40_frame_codec R104). -/
theorem recv_end_rxpay {s u : State}
    (h : (∃ p, recv s = .run p u) ∨ ∃ e, recv s = .err e u) : u.rxpay = s.rxpay := by
  by_cases hs : s.phase = .rxPayload
  · rw [recv_rxPayload hs] at h
    rcases recvPayload_cases s with
      ⟨as, _, _, hx⟩ | ⟨as, _, _, hx⟩ | ⟨k, as, _, hx⟩ | ⟨as, _, hx⟩ | ⟨_, hx⟩ <;>
      rw [hx] at h <;> obtain ⟨p, h⟩ | ⟨e, h⟩ := h <;> cases h
    rfl
  · have hkept := recv_kept s
    obtain ⟨p, h⟩ | ⟨e, h⟩ := h <;> rw [h] at hkept <;> exact hkept.rxpay_eq (.inl hs)

/-- The four operations that receive resume as RECV and then one response. -/
theorem exists_resumes_responds {i : Instr}
    (hi : i = .awaitResponse ∨ i = .configureAddress ∨ i = .getCoefficients
      ∨ ∃ expected, i = .receiveFrame expected) : ∃ g, Resumes i g ∧ Responds g := by
  obtain rfl | rfl | rfl | ⟨expected, rfl⟩ := hi
  · exact ⟨_, awaitResponse_resumes, packetResult_responds⟩
  · exact ⟨_, configureAddress_resumes, interpretWith_responds _ _ (fun _ => none) _⟩
  · exact ⟨_, getCoefficients_resumes, interpretWith_responds _ _ (fun u => some u.devAddr) _⟩
  · exact ⟨_, receiveFrame_resumes expected,
      interpretWith_responds _ _ (fun u => some u.devAddr) _⟩

/-- A resumed operation waits where RECV does, and answers where RECV ends. -/
theorem Resumes.next_cases {i : Instr} {g : Packet → State → Flow Result} {s t : State}
    (hi : Resumes i g) (hg : Responds g) (hr : s.receiving = true) (h : exec i s = .next t) :
    recv s = .wait t
      ∨ ∃ u r, t = u.respond r ∧ ((∃ p, recv s = .run p u) ∨ ∃ e, recv s = .err e u) := by
  rw [hi s hr] at h
  cases hx : recv s with
  | run p u =>
    obtain ⟨r, hresp⟩ := hg p u
    rw [hx, Flow.bind_run, hresp] at h
    exact .inr ⟨u, r, (Host.Outcome.next.inj h).symm, .inl ⟨p, rfl⟩⟩
  | wait u =>
    rw [hx] at h
    obtain rfl : u = t := Host.Outcome.next.inj h
    exact .inl rfl
  | err e u =>
    rw [hx] at h
    exact .inr ⟨u, _, (Host.Outcome.next.inj h).symm, .inr ⟨e, rfl⟩⟩
  | stop f =>
    rw [hx] at h
    cases h

/-- An operation that receives, resumed at one of its reads. -/
theorem resumed_receiverKept {i : Instr} {s t : State}
    (hi : i = .awaitResponse ∨ i = .configureAddress ∨ i = .getCoefficients
      ∨ ∃ expected, i = .receiveFrame expected)
    (hr : s.receiving = true) (h : exec i s = .next t) : s.receiverKept i t := by
  obtain ⟨g, hg, hresp⟩ := exists_resumes_responds hi
  have hkept := recv_kept s
  obtain hwait | ⟨u, r, rfl, hend⟩ := hg.next_cases hresp hr h
  · rw [hwait] at hkept
    exact hkept.receiverKept i t.hostOut hkept.rxpay_eq
  · have hpay := recv_end_rxpay hend
    have hkept : s.recvKept u := by
      obtain ⟨p, h⟩ | ⟨e, h⟩ := hend <;> rw [h] at hkept <;> exact hkept
    exact hkept.receiverKept i _ fun _ => hpay

/-- An operation that receives, before its first read. -/
theorem started_receiverKept {i : Instr} {s t : State}
    (hi : i = .awaitResponse ∨ i = .configureAddress ∨ i = .getCoefficients
      ∨ ∃ expected, i = .receiveFrame expected)
    (hr : s.receiving = false) (h : exec i s = .next t) : s.receiverKept i t := by
  obtain ⟨x, hx, hexec⟩ := exec_opStep i s
  rw [hexec] at h
  cases hx with
  | refused e why =>
    cases h
    exact s.receiverKept_same i _ _
  | sends p f hp hf =>
    have htyped : i = .configureAddress ∨ i = .getCoefficients := by
      obtain rfl | hc | hg | ⟨expected, rfl⟩ := hi
      · cases hp
      · exact .inl hc
      · exact .inr hg
      · cases hp
    obtain ⟨_, _, h2, hstop⟩ := typedReceive_packet htyped hp
    exact (senderKept_finish (send_bind_senderKept p s hf) h).receiverKept hp hr h2 hstop
  | receives g hs hg =>
    rw [recv_of_not_receiving hr] at h
    cases h
    exact s.receiverKept_same i _ _
  | setsAddress a ha =>
    obtain rfl := ha
    simp at hi

/-- Settles O42: before its first read such an operation is refused, sends, or issues the read; after it,
its step is RECV and its response. -/
theorem receivingOperationsFrame : Obligations.ReceivingOperationsFrame := by
  intro s t i hi h
  obtain hr | hr := Bool.eq_false_or_eq_true s.receiving
  · exact resumed_receiverKept hi hr h
  · exact started_receiverKept hi hr h

end Machine

end Sys2Proof

namespace Sys2Proof.Machine

/-! ## The machine's steps -/

/-- A host operation's encoding at the host port is its own whole request (30_encoding R70, R72). -/
theorem takeRequest_encode {i : Instr} (rest : List Byte) (hi : isHostOp i = true)
    (hw : i.wellFormed = true) : takeRequest (encode i ++ rest) = some (requestOf i, rest) :=
  takeRequest_eq_some_iff.mpr ⟨requestOf_whole hi hw, by rw [encode_of_isHostOp hi]⟩

/-- Where TXBUF holds the encoding of a wire command, that command is the one TX runs (20_memory R41). -/
theorem runOutgoing_of_encode {s : State} {i : Instr} (hi : isHostOp i = false)
    (hw : i.wellFormed = true) (hf : s.txFrame = encode i) : runOutgoing s = exec i s := by
  obtain ⟨p, hp⟩ := exists_wireInstr hi
  obtain ⟨henc, hpl⟩ := encode_of_wireInstr hp
  have hlen : p.payload.length ≤ maxPayload := hpl ▸ of_decide_eq_true hw
  simp only [runOutgoing, State.outgoing, hf, henc, decodeWire_encodePacket p hlen hp]

theorem blockStep_tx {s : State} (hs : s.phase = .tx) : blockStep s = runOutgoing s := by
  simp only [blockStep, hs]

/-- Outside READY and TX a step goes on with the operation in REQ (42_session_ops R166). -/
theorem blockStep_resumes {s : State} (hready : s.phase ≠ .ready) (htx : s.phase ≠ .tx) :
    blockStep s = runRequest s := by
  unfold blockStep
  cases hs : s.phase with
  | ready => exact absurd hs hready
  | tx => exact absurd hs htx
  | check | rxHeader | rxPayload | rxChecksum | interpret => rfl

/-- Settles O46: in READY the request taken is the operation's own, in TX the frame decodes to the wire
command, and elsewhere REQ names the operation. -/
theorem stepRunsTheDecodedInstruction : Obligations.StepRunsTheDecodedInstruction := by
  intro s i hp hw
  rw [step_eq_blockStep hp]
  refine ⟨fun rest hs hi hin => ?_, fun hs hi hf => ?_, fun hready htx hd => ?_⟩
  · rw [blockStep_accepts hs (hin ▸ takeRequest_encode rest hi hw)]
    exact runRequest_of_ok (decodeRequest_requestOf hi)
  · rw [blockStep_tx hs, runOutgoing_of_encode hi hw hf]
  · rw [blockStep_resumes hready htx, runRequest_of_ok hd]

/-- What stands between two steps of a run of `i`: the invariant, no reset, and `i` in REQ. -/
def State.runs (i : Instr) (s : State) : Prop :=
  s.inv = true ∧ s.platform = [] ∧ s.requested = .ok i

/-- While an operation is in progress in a run, a step of the machine is a step of the operation, in TX
through the wire command (42_session_ops R166; log entry 12). -/
theorem State.runs.step_eq {s : State} {i : Instr} (h : s.runs i) (hs : s.phase ≠ .ready) :
    step s = exec i s := by
  obtain ⟨hinv, hp, hi⟩ := h
  rw [step_eq_blockStep hp]
  by_cases htx : s.phase = .tx
  · obtain ⟨w, hw, _, hexec⟩ := wireCommandRunsItsOperation s i hinv htx hi
    rw [blockStep_tx htx, runOutgoing, hw]
    exact hexec
  · rw [blockStep_resumes hs htx, runRequest_of_ok (requested_ok.mp hi)]

/-- A step of the machine that is a step of the operation leaves what stands between two steps. -/
theorem State.runs_next {s u t : State} {i : Instr} (hinv : s.inv = true) (hstep : step s = .next t)
    (hexec : exec i u = .next t) (hp : u.platform = []) (hi : u.requested = .ok i) : t.runs i := by
  obtain ⟨hreq, _, hplat⟩ := exec_inputs hexec
  refine ⟨stepKeepsInvariant s t hinv hstep, hplat.trans hp, ?_⟩
  rw [requested_ok, hreq]
  exact requested_ok.mp hi

/-- The machine runs an operation in progress step by step, as far as it does not end. -/
theorem State.runs.repeatStep_eq {i : Instr} (n : Nat) {s : State} (h : s.runs i)
    (hbusy : ∀ m < n, ∀ u, repeatStep (exec i) m s = .next u → u.phase ≠ .ready) :
    repeatStep step n s = repeatStep (exec i) n s := by
  induction n generalizing s with
  | zero => rfl
  | succ n ih =>
    have hstep := h.step_eq (hbusy 0 (Nat.succ_pos n) s rfl)
    rw [repeatStep, repeatStep, hstep]
    cases hexec : exec i s with
    | next t =>
      obtain ⟨hinv, hp, hi⟩ := h
      refine ih (State.runs_next hinv (hstep.trans hexec) hexec hp hi) fun m hm u hu => ?_
      exact hbusy (m + 1) (Nat.succ_lt_succ hm) u ((repeatStep_succ hexec m).trans hu)
    | fault | refused => rfl

/-- Settles O47: the step that accepts the request is the operation's first, and from there the machine
runs the operation in progress. -/
theorem stepsRunTheOperationToItsEnd : Obligations.StepsRunTheOperationToItsEnd := by
  intro s i rest n hinv hp hs hw hi hin s0 hbusy
  have hstep : step s = exec i s0 := (stepRunsTheDecodedInstruction s i hp hw).1 rest hs hi hin
  rw [repeatStep, repeatStep, hstep]
  cases hexec : exec i s0 with
  | next t =>
    have hruns : t.runs i := State.runs_next hinv (hstep.trans hexec) hexec hp
      (requested_ok.mpr (decodeRequest_requestOf hi))
    refine hruns.repeatStep_eq n fun m hm u hu => ?_
    exact hbusy (m + 1) hm u ((repeatStep_succ hexec m).trans hu)
  | fault | refused => rfl

/-- A step that accepts no request leaves the host port's input as it was (42_session_ops R165). -/
theorem runRequest_hostIn {s t : State} (h : runRequest s = .next t) : t.hostIn = s.hostIn := by
  rcases runRequest_next h with ⟨e, rfl⟩ | ⟨i, _, hexec⟩
  · rfl
  · obtain ⟨_, hin, _⟩ := exec_inputs hexec
    exact hin

theorem runOutgoing_hostIn {s t : State} (h : runOutgoing s = .next t) : t.hostIn = s.hostIn := by
  unfold runOutgoing at h
  split at h
  · obtain ⟨_, hin, _⟩ := exec_inputs h
    exact hin
  · cases h

/-- Settles O50: only the acceptance of a request, in READY, takes from the host port, and without a
whole request READY does nothing. -/
theorem offeredRequestIsHeld : Obligations.OfferedRequestIsHeld := by
  intro s hp
  rw [step_eq_blockStep hp]
  refine ⟨fun t hs h => ?_, fun hs hr => ?_⟩
  · rcases blockStep_next h with
      ⟨hready, _⟩ | ⟨r, rest, hready, _, _⟩ | ⟨_, hrun⟩ | ⟨_, _, hrun⟩
    · exact absurd hready hs
    · exact absurd hready hs
    · exact runOutgoing_hostIn hrun
    · exact runRequest_hostIn hrun
  · simp only [blockStep, hs, hr]

/-! ## One response or one transaction -/

/-- A step returns one response and ends in READY, or returns none and leaves a transaction outstanding
(42_session_ops R165; 00_scope R7). -/
def State.oneResponse (s t : State) : Prop :=
  (t.phase = .ready ∧ ∃ r, t.hostOut = s.hostOut ++ [r])
    ∨ (t.waiting = true ∧ t.hostOut = s.hostOut)

/-- A procedure returns no response itself, and waits only with a transaction outstanding. -/
def Flow.oneResponse {α : Type} (s : State) : Flow α → Prop
  | .run _ t => t.hostOut = s.hostOut
  | .wait t => t.waiting = true ∧ t.hostOut = s.hostOut
  | .err _ t => t.hostOut = s.hostOut
  | .stop _ => True

theorem Flow.oneResponse_bind {α β : Type} {s : State} {x : Flow α} {f : α → State → Flow β}
    (hx : x.oneResponse s) (hf : ∀ a u, u.hostOut = s.hostOut → (f a u).oneResponse s) :
    (x.bind f).oneResponse s := by
  cases x with
  | run a u => exact hf a u hx
  | wait u => exact hx
  | err e u => exact hx
  | stop g => trivial

theorem Flow.oneResponse_finish {s t : State} {x : Flow Result} (hx : x.oneResponse s)
    (h : x.finish = .next t) : s.oneResponse t := by
  rcases Flow.finish_next h with ⟨r, u, rfl, rfl⟩ | rfl | ⟨e, u, rfl, rfl⟩
  · exact .inl ⟨rfl, _, congrArg (· ++ _) hx⟩
  · exact .inr hx
  · exact .inl ⟨rfl, _, congrArg (· ++ _) hx⟩

theorem State.waiting_iff (s : State) :
    s.waiting = true ↔ s.phase = .tx ∨ s.phase = .rxHeader ∨ s.phase = .rxPayload
      ∨ s.phase = .rxChecksum := by
  unfold State.waiting
  cases s.phase <;> decide

/-- The outstanding transaction has been answered, and its answer, not a silent one, used (20_memory
R52). -/
def State.answered (s t : State) : Prop := ∃ a, a ≠ .silent ∧ s.answers = a :: t.answers

/-- Nothing has changed but the answers to come (70_reset R266). -/
def State.held (s t : State) : Prop := t = { s with answers := t.answers }

theorem State.held.phase {s t : State} (h : s.held t) : t.phase = s.phase := by
  unfold State.held at h
  exact (congrArg State.phase h :)

/-- What comes of an outstanding transaction: it is answered, and another is issued further on in the
order of phases or none; or the block is held (20_memory R52; 42_session_ops R166). -/
def Flow.progress {α : Type} (s : State) : Flow α → Prop
  | .run _ t => s.answered t
  | .wait t => s.held t ∨ (s.phase.rank < t.phase.rank ∧ t.waiting = true ∧ s.answered t)
  | .err _ t => s.answered t
  | .stop _ => True

theorem State.answered_of_complete {s t : State} (h : s.answers = .complete :: t.answers) :
    s.answered t := ⟨_, Answer.noConfusion, h⟩

theorem State.answered_of_fail {s t : State} {k : Nat} (h : s.answers = .fail k :: t.answers) :
    s.answered t := ⟨_, Answer.noConfusion, h⟩

theorem State.held_answers (s : State) (as : List Answer) : s.held { s with answers := as } := rfl

theorem sendWrite_progress (p : Packet) (s : State) : (sendWrite p s).progress s := by
  rcases sendWrite_cases p s with ⟨as, ha, h⟩ | ⟨k, as, ha, h⟩ | ⟨as, _, h⟩ | ⟨_, h⟩ <;> rw [h]
  · exact State.answered_of_complete ha
  · exact State.answered_of_fail ha
  · exact .inl (s.held_answers as)
  · exact .inl rfl

theorem recvHeader_progress {s : State} (hs : s.phase = .rxHeader) :
    (recvHeader s).progress s := by
  rcases recvHeader_cases s with
    ⟨as, ha, _, _, h⟩ | ⟨as, ha, _, _, h⟩ | ⟨as, _, _, h⟩ | ⟨k, as, ha, h⟩ | ⟨as, _, h⟩ | ⟨_, h⟩ <;>
    rw [h]
  · refine .inr ⟨?_, ?_, State.answered_of_complete ha⟩
    · rw [hs]
      show _ < Phase.rank (if _ then _ else _)
      split <;> decide
    · rw [State.waiting_iff]
      show (if _ then _ else _) = _ ∨ (if _ then _ else _) = _ ∨ (if _ then _ else _) = _
        ∨ (if _ then _ else _) = _
      split <;> decide
  · exact State.answered_of_complete ha
  · exact .inl rfl
  · exact State.answered_of_fail ha
  · exact .inl (s.held_answers as)
  · exact .inl rfl

theorem recvPayload_progress {s : State} (hs : s.phase = .rxPayload) :
    (recvPayload s).progress s := by
  rcases recvPayload_cases s with
    ⟨as, ha, _, h⟩ | ⟨as, _, _, h⟩ | ⟨k, as, ha, h⟩ | ⟨as, _, h⟩ | ⟨_, h⟩ <;> rw [h]
  · exact .inr ⟨by rw [hs]; exact Nat.lt_succ_self 4, rfl, State.answered_of_complete ha⟩
  · exact .inl rfl
  · exact State.answered_of_fail ha
  · exact .inl (s.held_answers as)
  · exact .inl rfl

theorem recvChecksum_progress (s : State) : (recvChecksum s).progress s := by
  rcases recvChecksum_cases s with
    ⟨as, ck, rest, ha, _, _, h⟩ | ⟨as, ck, rest, ha, _, _, h⟩ | ⟨as, _, _, h⟩ | ⟨k, as, ha, h⟩
      | ⟨as, _, h⟩ | ⟨_, h⟩ <;> rw [h]
  · exact State.answered_of_complete ha
  · exact State.answered_of_complete ha
  · exact .inl rfl
  · exact State.answered_of_fail ha
  · exact .inl (s.held_answers as)
  · exact .inl rfl

/-- The answer to an outstanding read (42_session_ops R155). -/
theorem recv_progress {s : State}
    (h : s.phase = .rxHeader ∨ s.phase = .rxPayload ∨ s.phase = .rxChecksum) :
    (recv s).progress s := by
  obtain hs | hs | hs := h
  · rw [recv_rxHeader hs]
    exact recvHeader_progress hs
  · rw [recv_rxPayload hs]
    exact recvPayload_progress hs
  · rw [recv_rxChecksum hs]
    exact recvChecksum_progress s

/-- RECV waits only with a transaction outstanding. -/
theorem recv_waiting {s t : State} (h : recv s = .wait t) : t.waiting = true := by
  have answer (hs : s.phase = .rxHeader ∨ s.phase = .rxPayload ∨ s.phase = .rxChecksum) :
      t.waiting = true := by
    have hprog := recv_progress hs
    rw [h] at hprog
    obtain hheld | ⟨_, hw, _⟩ := hprog
    · rw [State.waiting_iff, hheld.phase]
      exact .inr hs
    · exact hw
  have issue (hr : s.receiving = false) : t.waiting = true := by
    rw [recv_of_not_receiving hr] at h
    cases h
    rfl
  cases hs : s.phase with
  | rxHeader => exact answer (.inl hs)
  | rxPayload => exact answer (.inr (.inl hs))
  | rxChecksum => exact answer (.inr (.inr hs))
  | ready | check | tx => exact issue (by rw [State.receiving, hs])
  | interpret => simp [recv, hs] at h

theorem send_oneResponse (p : Packet) {s u : State} (h : u.hostOut = s.hostOut) :
    (send p u).oneResponse s := by
  have hkept := send_kept p u
  have hout {t : State} (hk : u.sendKept p t) : t.hostOut = s.hostOut := by
    obtain ⟨_, _, _, _, _, _, _, _, _, _, ho, _⟩ := hk
    exact ho.trans h
  cases hx : send p u <;> rw [hx] at hkept
  case wait t => exact ⟨by rw [State.waiting, hkept.1], hout hkept⟩
  case stop => trivial
  all_goals exact hout hkept

theorem recv_oneResponse {s u : State} (h : u.hostOut = s.hostOut) : (recv u).oneResponse s := by
  have hkept := recv_kept u
  have hout {t : State} (hk : u.recvKept t) : t.hostOut = s.hostOut := by
    obtain ⟨_, _, _, _, ho, _⟩ := hk
    exact ho.trans h
  cases hx : recv u <;> rw [hx] at hkept
  case wait t => exact ⟨recv_waiting hx, hout hkept⟩
  case stop => trivial
  all_goals exact hout hkept

theorem interpretWith_oneResponse (P : Params) (c : Byte) (a : Option Byte)
    (d : Packet → Except ErrorInfo Result) (p : Packet) {s u : State} (h : u.hostOut = s.hostOut) :
    (interpretWith P c a d p u).oneResponse s := by
  rcases interpretWith_cases P c a d p u with ⟨r, _, _, hx⟩ | ⟨e, _, hx⟩ <;> rw [hx] <;> exact h

/-- The mode check, then what keeps to one response from the same state. -/
theorem requireMode_oneResponse {s u : State} (m : Mode) (op : Byte) (h : u.hostOut = s.hostOut) :
    (requireMode m op u).oneResponse s := by
  rcases requireMode_cases m op u with ⟨_, hx⟩ | ⟨_, hx⟩ <;> rw [hx] <;> exact h

theorem afterSend_oneResponse (P : Params) {s u : State} (h : u.hostOut = s.hostOut) :
    (afterSend P u).oneResponse s := by
  unfold afterSend
  split
  · exact Flow.oneResponse_bind (recv_oneResponse h) fun _ _ hv =>
      interpretWith_oneResponse _ _ _ _ _ hv
  split
  · exact Flow.oneResponse_bind (recv_oneResponse h) fun _ _ hv =>
      interpretWith_oneResponse _ _ _ _ _ hv
  · exact h

theorem sendFrame_oneResponse (P : Params) (p : Packet) (s : State) :
    (sendFrame P p s).oneResponse s := by
  unfold sendFrame
  split
  · exact Flow.oneResponse_bind (send_oneResponse p rfl) fun _ _ h => afterSend_oneResponse P h
  · rfl

/-- SEND as the end of an operation. -/
theorem send_end_oneResponse (p : Packet) {s u : State} (h : u.hostOut = s.hostOut) :
    ((send p u).bind fun _ v => .run Result.empty v).oneResponse s :=
  Flow.oneResponse_bind (send_oneResponse p h) fun _ _ hv => hv

theorem receiveFlow_oneResponse {m : Mode} {op : Byte} {g : Packet → State → Flow Result} {s : State}
    (hg : ∀ p u, u.hostOut = s.hostOut → (g p u).oneResponse s) :
    (receiveFlow m op g s).oneResponse s := by
  refine Flow.oneResponse_bind ?_ fun _ _ h => Flow.oneResponse_bind (recv_oneResponse h) hg
  split
  · rfl
  · exact requireMode_oneResponse m op rfl

theorem exchangeFlow_oneResponse {op : Byte} {q : State → Packet}
    {g : Packet → State → Flow Result} {s : State}
    (hg : ∀ p u, u.hostOut = s.hostOut → (g p u).oneResponse s) :
    (exchangeFlow op q g s).oneResponse s := by
  refine Flow.oneResponse_bind ?_ fun _ _ h => Flow.oneResponse_bind (recv_oneResponse h) hg
  split
  · rfl
  · exact Flow.oneResponse_bind (requireMode_oneResponse .idle op rfl) fun _ u h =>
      send_oneResponse (q u) h

/-- Every instruction's step returns one response or leaves one transaction outstanding. -/
theorem exec_oneResponse {i : Instr} {s t : State} (h : exec i s = .next t) : s.oneResponse t := by
  cases i with
  | frameGetDistance | frameStop | frameAcknowledge | frameGetCorrectionCoefficients
  | frameConfigureAddress => exact Flow.oneResponse_finish (sendFrame_oneResponse _ _ s) h
  | issue cmd addr off pl =>
    refine Flow.oneResponse_finish (x := issueFlow cmd addr off pl s) ?_ h
    unfold issueFlow
    split
    · split
      · exact send_end_oneResponse _ rfl
      · rfl
    · rfl
  | awaitResponse =>
    exact Flow.oneResponse_finish (x := awaitFlow s) (receiveFlow_oneResponse fun _ _ hu => hu) h
  | configureAddress =>
    exact Flow.oneResponse_finish (x := configureAddressFlow Config.params s)
      (exchangeFlow_oneResponse fun _ _ hu => interpretWith_oneResponse _ _ _ _ _ hu) h
  | getCoefficients =>
    exact Flow.oneResponse_finish (x := getCoefficientsFlow Config.params s)
      (exchangeFlow_oneResponse (q := fun u => ⟨u.devAddr, _, 0, []⟩)
        fun _ _ hu => interpretWith_oneResponse _ _ _ _ _ hu) h
  | beginStream =>
    exact Flow.oneResponse_finish (x := beginStreamFlow s)
      (Flow.oneResponse_bind (requireMode_oneResponse _ _ rfl) fun _ _ hu =>
        send_end_oneResponse _ hu) h
  | stopStream => exact Flow.oneResponse_finish (x := stopStreamFlow s) (send_end_oneResponse _ rfl) h
  | receiveFrame expected =>
    exact Flow.oneResponse_finish (x := receiveFrameFlow Config.params expected s)
      (receiveFlow_oneResponse fun _ _ hu => interpretWith_oneResponse _ _ _ _ _ hu) h
  | setDeviceAddress a =>
    exact Flow.oneResponse_finish (x := setDeviceAddressFlow a s)
      (Flow.oneResponse_bind (requireMode_oneResponse _ _ rfl) fun _ _ hu => hu) h

theorem runRequest_oneResponse {s t : State} (h : runRequest s = .next t) : s.oneResponse t := by
  rcases runRequest_next h with ⟨e, rfl⟩ | ⟨i, _, hexec⟩
  · exact .inl ⟨rfl, _, rfl⟩
  · exact exec_oneResponse hexec

/-- The block's step, with an operation in progress or a whole request offered. -/
theorem blockStep_oneResponse {s t : State}
    (hs : s.phase ≠ .ready ∨ (takeRequest s.hostIn).isSome = true) (h : blockStep s = .next t) :
    s.oneResponse t := by
  by_cases hready : s.phase = .ready
  · obtain ⟨⟨r, rest⟩, hr⟩ := Option.isSome_iff_exists.mp (hs.resolve_left (not_not_intro hready))
    rw [blockStep_accepts hready hr] at h
    exact runRequest_oneResponse (s := s.latch r rest) h
  · rcases blockStep_next h with ⟨hc, _⟩ | ⟨r, rest, hc, _, _⟩ | ⟨_, hrun⟩ | ⟨_, _, hrun⟩
    · exact absurd hc hready
    · exact absurd hc hready
    · obtain ⟨p, hp⟩ := runOutgoing_next hrun
      exact Flow.oneResponse_finish (sendFrame_oneResponse _ p s) hp
    · exact runRequest_oneResponse hrun

/-! ### The answer to a transaction -/

/-- Before any transaction, no answer is used (00_scope R7; 20_memory R52). -/
theorem exec_starting_answers {i : Instr} {s t : State} (hs : s.phase ≠ .tx)
    (hr : s.receiving = false) (h : exec i s = .next t) : t.answers = s.answers := by
  obtain ⟨x, hx, hexec⟩ := exec_opStep i s
  rw [hexec] at h
  cases hx with
  | refused e why =>
    cases h
    rfl
  | sends p f hp hf =>
    obtain ⟨_, _, _, _, _, _, _, _, _, _, _, hissue, _⟩ :=
      senderKept_finish (send_bind_senderKept p s hf) h
    obtain ⟨_, _, hans⟩ := hissue hs
    exact hans
  | receives g hg _ =>
    rw [recv_of_not_receiving hr] at h
    cases h
    rfl
  | setsAddress a ha =>
    cases h
    rfl

/-- What comes of a step that began with a transaction outstanding: the block is held, or the transaction
has been answered, and the step ends in READY or further on in the order of phases. -/
def State.progressed (s t : State) : Prop :=
  s.held t ∨ ((t.phase = .ready ∨ s.phase.rank < t.phase.rank) ∧ s.answered t)

theorem Flow.progress_finish {s t : State} {x : Flow Result} (hx : x.progress s)
    (h : x.finish = .next t) : s.progressed t := by
  rcases Flow.finish_next h with ⟨r, u, rfl, rfl⟩ | rfl | ⟨e, u, rfl, rfl⟩
  · exact .inr ⟨.inl rfl, hx⟩
  · exact hx.imp_right fun ⟨hrank, _, ha⟩ => ⟨.inr hrank, ha⟩
  · exact .inr ⟨.inl rfl, hx⟩

/-- The answer to an outstanding TxWrite, and then the end of the operation or its header read
(42_session_ops R154, R166). -/
theorem send_bind_progress {p : Packet} {s : State} {f : Unit → State → Flow Result}
    (hs : s.phase = .tx) (hp : p.payload.length ≤ maxPayload) (hf : EndsOrReceives f) :
    ((send p s).bind f).progress s := by
  rw [send_eq p s hp, if_pos hs]
  have hprog := sendWrite_progress p s
  have hkept := sendWrite_kept p s hs
  cases hx : sendWrite p s with
  | run _ u =>
    rw [hx] at hprog hkept
    rw [Flow.bind_run]
    obtain hend | ⟨g, _, hrecv⟩ := hf u
    · rw [hend]
      exact hprog
    · rw [hrecv, recv_of_tx hkept.1]
      exact .inr ⟨by rw [hs]; exact Nat.lt_succ_self 2, rfl, hprog⟩
  | wait | err | stop =>
    rw [hx] at hprog
    exact hprog

/-- In TX of a run a step is the answer to the TxWrite of the packet due. -/
theorem runOutgoing_progressed {s t : State} (hs : s.phase = .tx) (hinv : s.inv = true)
    (h : runOutgoing s = .next t) : s.progressed t := by
  have hph := ((State.inv_iff s).mp hinv).2
  simp only [State.phaseOk, hs] at hph
  obtain ⟨p, _, hk, hl, hp, hf⟩ := (State.txOk_iff s).mp hph
  rw [runOutgoing_eq hk hp hf, sendFrame_of_legal _ hl] at h
  exact Flow.progress_finish (send_bind_progress hs hp (afterSend_endsOrReceives _)) h

/-- While a read is outstanding in a run, REQ holds one of the four operations that receive. -/
theorem State.rxOk_requested {s : State} (h : s.rxOk = true) :
    ∃ i, s.requested = .ok i ∧ (i = .awaitResponse ∨ i = .configureAddress ∨ i = .getCoefficients
      ∨ ∃ expected, i = .receiveFrame expected) := by
  unfold State.rxOk at h
  split at h
  · exact ⟨_, ‹_›, .inl rfl⟩
  · exact ⟨_, ‹_›, .inr (.inl rfl)⟩
  · exact ⟨_, ‹_›, .inr (.inr (.inl rfl))⟩
  · exact ⟨_, ‹_›, .inr (.inr (.inr ⟨_, rfl⟩))⟩
  · cases h
  · cases h

/-- While a read is outstanding in a run, a step is the answer to it. -/
theorem runRequest_progressed {s t : State}
    (hs : s.phase = .rxHeader ∨ s.phase = .rxPayload ∨ s.phase = .rxChecksum) (hrx : s.rxOk = true)
    (h : runRequest s = .next t) : s.progressed t := by
  obtain ⟨i, hreq, hi⟩ := State.rxOk_requested hrx
  rw [runRequest_of_ok (requested_ok.mp hreq)] at h
  obtain ⟨g, hg, hresp⟩ := exists_resumes_responds hi
  have hprog := recv_progress hs
  obtain hwait | ⟨u, r, rfl, hend⟩ := hg.next_cases hresp (State.receiving_of_phase hs) h
  · rw [hwait] at hprog
    exact hprog.imp_right fun ⟨hrank, _, ha⟩ => ⟨.inr hrank, ha⟩
  · refine .inr ⟨.inl rfl, ?_⟩
    obtain ⟨p, h⟩ | ⟨e, h⟩ := hend <;> rw [h] at hprog <;> exact hprog

/-- The phases in which the invariant lets a step begin, and what it says there of the operation. -/
theorem State.inv_phase {s : State} (h : s.inv = true) :
    s.phase = .ready ∨ s.phase = .tx
      ∨ ((s.phase = .rxHeader ∨ s.phase = .rxPayload ∨ s.phase = .rxChecksum) ∧ s.rxOk = true) := by
  have hph := ((State.inv_iff s).mp h).2
  unfold State.phaseOk at hph
  cases hs : s.phase <;> simp_all

/-- In a run, a step with a transaction outstanding goes on from the answer to it. -/
theorem blockStep_progressed {s t : State} (hinv : s.inv = true) (hs : s.phase ≠ .ready)
    (h : blockStep s = .next t) : s.progressed t := by
  obtain hready | htx | ⟨hrx, hok⟩ := State.inv_phase hinv
  · exact absurd hready hs
  · exact runOutgoing_progressed htx hinv (blockStep_tx htx ▸ h)
  · have htx : s.phase ≠ .tx := by
      obtain hr | hr | hr := hrx <;> rw [hr] <;> exact Phase.noConfusion
    exact runRequest_progressed hrx hok (blockStep_resumes hs htx ▸ h)

/-- A step that accepts a request uses no answer. -/
theorem runRequest_latch_answers {s t : State} {r : Request} {rest : List Byte}
    (h : runRequest (s.latch r rest) = .next t) : t.answers = s.answers := by
  rcases runRequest_next h with ⟨e, rfl⟩ | ⟨i, _, hexec⟩
  · rfl
  · exact exec_starting_answers (s := s.latch r rest) Phase.noConfusion rfl hexec

/-- One response or one transaction outstanding, and so READY or a phase past it. -/
theorem State.oneResponse.rank {s t : State} (h : s.oneResponse t) :
    t.phase = .ready ∨ 0 < t.phase.rank := by
  obtain ⟨hready, _⟩ | ⟨hw, _⟩ := h
  · exact .inl hready
  · obtain hp | hp | hp | hp := (State.waiting_iff t).mp hw <;> rw [hp] <;> exact .inr (by decide)

/-- Settles O49: every instruction's step keeps to one response or one transaction; in a run, a step from
READY uses no answer and one with a transaction outstanding goes on from its answer. -/
theorem oneResponsePerRequest : Obligations.OneResponsePerRequest := by
  intro s t hp hs h
  rw [step_eq_blockStep hp] at h
  have hone := blockStep_oneResponse hs h
  refine ⟨hone, fun hinv => ?_⟩
  by_cases hready : s.phase = .ready
  · obtain ⟨⟨r, rest⟩, hr⟩ := Option.isSome_iff_exists.mp (hs.resolve_left (not_not_intro hready))
    have hans := runRequest_latch_answers (blockStep_accepts hready hr ▸ h)
    have hw : s.waiting = false := by rw [State.waiting, hready]
    refine ⟨.inr ⟨by rw [hready]; exact hone.rank, fun hc => ?_⟩, fun _ => hans⟩
    exact absurd (hw.symm.trans hc) Bool.false_ne_true
  · have hw : s.waiting = true := by
      rw [State.waiting_iff]
      exact ((State.inv_phase hinv).resolve_left hready).imp_right And.left
    refine ⟨(blockStep_progressed hinv hready h).imp_right fun ⟨hrank, ha⟩ => ⟨hrank, fun _ => ha⟩,
      fun hc => absurd (hc.symm.trans hw) Bool.false_ne_true⟩

end Sys2Proof.Machine

/-! # The family 43_payload_decoders: the values the decoders make

First the fields of a payload as numbers of its bytes and the two parts of a packed sample (O33). Then
what each decoder answers (O30, O31, O34), and the value of a coefficient (O32). -/

namespace Sys2Proof.Machine

/-! ## The fields of a payload -/

/-- Four bytes fill a 32-bit field without wrapping (00_scope R15). -/
theorem le32_toNat (b0 b1 b2 b3 : Byte) :
    (le32 b0 b1 b2 b3).toNat
      = b0.toNat + 256 * b1.toNat + 65536 * b2.toNat + 16777216 * b3.toNat := by
  have h0 := b0.isLt
  have h1 := b1.isLt
  have h2 := b2.isLt
  have h3 := b3.isLt
  simp only [le32, BitVec.toNat_ofNat]
  omega

theorem half_toNat (pl : List Byte) (k : Nat) :
    (half pl k).toNat = (pl.getD k 0).toNat + 256 * (pl.getD (k + 1) 0).toNat :=
  le16_toNat _ _

theorem long_toNat (pl : List Byte) (k : Nat) :
    (long pl k).toNat = (pl.getD k 0).toNat + 256 * (pl.getD (k + 1) 0).toNat
      + 65536 * (pl.getD (k + 2) 0).toNat + 16777216 * (pl.getD (k + 3) 0).toNat :=
  le32_toNat _ _ _ _

/-! ## A packed sample -/

/-- What is above the seven low bits of a 16-bit value fits nine bits. -/
theorem sampleDistance_toNat (v : Half) : (sampleDistance v).toNat = v.toNat / 128 := by
  have hv := v.isLt
  rw [sampleDistance, BitVec.toNat_ofNat]
  omega

theorem sampleConfidence_toNat (v : Half) : (sampleConfidence v).toNat = v.toNat % 128 := by
  rw [sampleConfidence, BitVec.toNat_ofNat, Nat.mod_mod]

/-- Settles O33: a bit slice is a division by a power of two and a remainder. -/
theorem sampleSplit : Obligations.SampleSplit := by
  intro v
  refine ⟨sampleDistance_toNat v, sampleConfidence_toNat v, ?_, ?_⟩ <;>
    apply BitVec.eq_of_toNat_eq
  · rw [sampleDistance, BitVec.toNat_ofNat, BitVec.extractLsb'_toNat, Nat.shiftRight_eq_div_pow]
  · rw [sampleConfidence_toNat, BitVec.extractLsb'_toNat, Nat.shiftRight_zero]

/-! ## What the decoders answer -/

/-- Settles O30: a byte that is none of the three patterns passes the three tests. -/
theorem addressCountPatterns : Obligations.AddressCountPatterns := by
  refine ⟨rfl, rfl, rfl, fun a h1 h3 h7 => ?_⟩
  rw [addressCount, if_neg h1, if_neg h3, if_neg h7]

/-- Settles O31: the five fields are the payload's fields at 0, 4, 8, 12 and 16. -/
theorem calibrationFields : Obligations.CalibrationFields := by
  intro pl
  refine ⟨fun hlen => if_neg hlen, fun hlen => ⟨_, _, _, _, _, if_pos hlen, ?_⟩⟩
  exact ⟨long_toNat pl 0, long_toNat pl 4, long_toNat pl 8, long_toNat pl 12, half_toNat pl 16⟩

/-- A payload of the expected length passes both checks of `DecodeDistance` (43_payload_decoders
R203). -/
theorem decodeDistance_of_length (P : Params) {pl : List Byte} {expected : Half}
    (hlen : pl.length = 4 + 2 * expected.toNat) :
    decodeDistance P pl expected = .ok (.distanceFrame (long pl 0) expected
      ((List.range expected.toNat).map (distanceSample P pl expected.toNat))) := by
  have hcount : (pl.length - 4) / 2 = expected.toNat := by omega
  rw [decodeDistance, if_neg (by omega)]
  simp only [hcount, ne_eq, not_true_eq_false, if_false, BitVec.ofNat_toNat, BitVec.setWidth_eq]

/-- The packed value of a sample is its own two bytes (43_payload_decoders R204). -/
theorem packedSample_toNat (pl : List Byte) (n : Nat) :
    (half pl (4 + 2 * n)).toNat
      = (pl.getD (4 + 2 * n) 0).toNat + 256 * (pl.getD (5 + 2 * n) 0).toNat := by
  rw [half_toNat, show 4 + 2 * n + 1 = 5 + 2 * n by omega]

/-- Settles O34: sample n of the answer is `distanceSample` at n. -/
theorem samplesAreIndependent : Obligations.SamplesAreIndependent := by
  intro P pl expected hlen
  refine ⟨_, _, decodeDistance_of_length P hlen, long_toNat pl 0, by simp, ?_⟩
  intro n h v
  have hv : (half pl (4 + 2 * n)).toNat = v := packedSample_toNat pl n
  have hn : n < expected.toNat := by simpa using h
  rw [List.getElem_map, List.getElem_range, ← hv]
  refine ⟨?_, sampleDistance_toNat _, sampleConfidence_toNat _, ?_⟩
  · exact (BitVec.toNat_ofNat n 16).trans (Nat.mod_eq_of_lt (hn.trans expected.isLt))
  · rw [distanceSample, BitVec.ofNat_toNat, BitVec.setWidth_eq]

/-! ## The value of a coefficient -/

/-- Settles O32: a quotient of rationals is exact, and the raw value has 32 bits. -/
theorem coefficientValueIsExact : Obligations.CoefficientValueIsExact := by
  intro raw
  have hmax : (raw.toNat : Rat) ≤ 4294967295 := by
    exact_mod_cast Nat.le_of_lt_succ raw.isLt
  refine ⟨div_mul_cancel₀ _ (by norm_num), ?_, ?_⟩
  · exact div_nonneg (Nat.cast_nonneg _) (by norm_num)
  · exact div_le_div_of_nonneg_right hmax (by norm_num)

end Sys2Proof.Machine

/-! # The family 60_exceptions: the errors

First the STATUS and SUB of each error (O39) and the read that fails (O26). Then what an error leaves of
the session (O40), and why no step of a run stops the model (O56). -/

namespace Sys2Proof.Machine

/-! ## The codes -/

/-- Settles O39: an error's response is its STATUS, its SUB and its info, and each error has one row in
both tables. -/
theorem statusAndSubCodes : Obligations.StatusAndSubCodes :=
  ⟨fun _ _ _ _ => rfl, fun _ _ => rfl, fun _ => rfl, fun _ _ => rfl, fun _ _ => rfl,
    fun _ _ _ _ => rfl, rfl, rfl, rfl, rfl, fun _ _ => rfl, fun _ => rfl, fun _ => rfl, fun _ => rfl⟩

/-- STATUS 0 is the success response's alone (60_exceptions R230). -/
theorem ErrorInfo.status_ne_zero (e : ErrorInfo) : e.status ≠ 0 := by
  cases e <;> simp [ErrorInfo.status]

/-! ## The read that fails -/

section FailedRead

variable {s : State} {as : List Answer} {k : Nat}

theorem rxRead_fail (w : Transaction) (n : Nat) (ha : s.answers = .fail k :: as) :
    rxRead w n s
      = .err (.transport w) { s with answers := as, rxStream := s.rxStream.drop (min k n) } := by
  simp only [rxRead, ha]

theorem recvHeader_fail (ha : s.answers = .fail k :: as) :
    recvHeader s = .err (.transport .rxHeader)
      { s with answers := as, rxStream := s.rxStream.drop (min k 10) } := by
  rw [recvHeader, rxRead_fail _ _ ha]
  rfl

theorem recvPayload_fail (ha : s.answers = .fail k :: as) :
    recvPayload s = .err (.transport .rxPayload)
      { s with answers := as, rxStream := s.rxStream.drop (min k s.declLen.toNat) } := by
  rw [recvPayload, rxRead_fail _ _ ha]
  rfl

theorem recvChecksum_fail (ha : s.answers = .fail k :: as) :
    recvChecksum s = .err (.transport .rxChecksum)
      { s with answers := as, rxStream := s.rxStream.drop (min k 1) } := by
  rw [recvChecksum, rxRead_fail _ _ ha]
  rfl

end FailedRead

/-- Settles O26: the step of each of the four operations is RECV, which is the read PHASE names, and the
error of that read ends the step whatever would follow it. -/
theorem failedReadReportsItsPhase : Obligations.FailedReadReportsItsPhase := by
  intro s i as k hi ha failed
  obtain ⟨g, hg⟩ := exists_resumes hi
  refine ⟨fun hs => ?_, fun hs => ?_, fun hs => ?_⟩
  · exact hg.err (State.receiving_of_phase (.inl hs))
      ((recv_rxHeader hs).trans (recvHeader_fail ha))
  · exact hg.err (State.receiving_of_phase (.inr (.inl hs)))
      ((recv_rxPayload hs).trans (recvPayload_fail ha))
  · exact hg.err (State.receiving_of_phase (.inr (.inr hs)))
      ((recv_rxChecksum hs).trans (recvChecksum_fail ha))

/-! ## What an error leaves -/

/-- What an error leaves of the session and the stream (60_exceptions R237, R239; 40_frame_codec R108). -/
def State.errorKept (s t : State) : Prop :=
  t.mode = s.mode ∧ t.devAddr = s.devAddr ∧ t.phase = .ready
    ∧ ∃ k, t.rxStream = s.rxStream.drop k

/-- A write that fails has moved the link and used its answer, and nothing else: the mode transition
follows only a write that completes (42_session_ops R152, R154). -/
theorem send_err_state {p : Packet} {s u : State} {e : ErrorInfo} (h : send p s = .err e u) :
    ∃ as bs, u = { s with answers := as, link := bs } := by
  unfold send at h
  split at h
  · split at h
    · rcases sendWrite_cases p s with
        ⟨as, _, hw⟩ | ⟨k, as, _, hw⟩ | ⟨as, _, hw⟩ | ⟨_, hw⟩ <;> rw [hw] at h <;> cases h
      exact ⟨as, _, rfl⟩
    · cases h
  · cases h

/-- What follows a SEND in the same step raises no error, so the error is the SEND's (42_session_ops
R166). -/
theorem send_bind_err {p : Packet} {s u : State} {e : ErrorInfo} {f : Unit → State → Flow Result}
    (hf : EndsOrReceives f) (h : (send p s).bind f = .err e u) : send p s = .err e u := by
  cases hs : send p s with
  | run _ v =>
    rw [hs, Flow.bind_run] at h
    have hv : v.phase = .tx := by
      obtain ⟨htx, as, rfl⟩ := send_run hs
      exact htx
    obtain hend | ⟨g, _, hrecv⟩ := hf v
    · rw [hend] at h
      cases h
    · rw [hrecv, recv_of_tx hv] at h
      cases h
  | wait | stop =>
    rw [hs] at h
    cases h
  | err e' v =>
    rw [hs] at h
    cases h
    rfl

/-- The error an instruction's step ends with is a check's, a failed write's, or one of RECV and the
interpretation of its packet; none of them touches MODE or DEV_ADDR. -/
theorem OpStep.err_kept {s u : State} {i : Instr} {x : Flow Result} {e : ErrorInfo}
    (h : OpStep s i x) (hx : x = .err e u) (r : Response) : s.errorKept (u.respond r) := by
  cases h with
  | refused e' why =>
    cases hx
    exact ⟨rfl, rfl, rfl, 0, rfl⟩
  | sends p f hp hf =>
    obtain ⟨as, bs, rfl⟩ := send_err_state (send_bind_err hf hx)
    exact ⟨rfl, rfl, rfl, 0, rfl⟩
  | receives g hs hg =>
    have hkept : ((recv s).bind g).all s.recvKept :=
      Flow.all_bind _ g (recv_kept s) (fun _ h => h) fun q v hv =>
        Flow.all_imp _ (hg q v) fun _ hw => hw ▸ hv
    rw [hx] at hkept
    obtain ⟨hm, hdev, _, _, _, _, _, _, hrx, _⟩ := hkept
    exact ⟨hm, hdev, rfl, hrx⟩
  | setsAddress a hi => cases hx

/-- An instruction whose response has a STATUS other than 0 ended with an error. -/
theorem exec_errorKept {i : Instr} {s t : State} {r : Response} (h : exec i s = .next t)
    (hout : t.hostOut = s.hostOut ++ [r]) (hr : r.status ≠ 0) : s.errorKept t := by
  obtain ⟨x, hx, hexec⟩ := exec_opStep i s
  have hkept := hx.hostKept
  rcases Flow.finish_next (hexec ▸ h) with ⟨v, u, rfl, rfl⟩ | rfl | ⟨e, u, rfl, rfl⟩
  · obtain ⟨_, _, _, ho⟩ := hkept
    obtain rfl : Response.ok v = r := by simpa [ho] using hout
    exact absurd rfl hr
  · obtain ⟨_, _, _, ho⟩ := hkept
    simp [ho] at hout
  · exact hx.err_kept rfl _

theorem runRequest_errorKept {s t : State} {r : Response} (h : runRequest s = .next t)
    (hout : t.hostOut = s.hostOut ++ [r]) (hr : r.status ≠ 0) : s.errorKept t := by
  rcases runRequest_next h with ⟨e, rfl⟩ | ⟨i, _, hexec⟩
  · exact ⟨rfl, rfl, rfl, 0, rfl⟩
  · exact exec_errorKept hexec hout hr

theorem runOutgoing_errorKept {s t : State} {r : Response} (h : runOutgoing s = .next t)
    (hout : t.hostOut = s.hostOut ++ [r]) (hr : r.status ≠ 0) : s.errorKept t := by
  unfold runOutgoing at h
  split at h
  · exact exec_errorKept h hout hr
  · cases h

/-- The acceptance of a request touches neither the session nor the stream, so the error of its operation
keeps what stood before it. -/
theorem blockStep_errorKept {s t : State} {r : Response} (h : blockStep s = .next t)
    (hout : t.hostOut = s.hostOut ++ [r]) (hr : r.status ≠ 0) : s.errorKept t := by
  rcases blockStep_next h with ⟨_, rfl⟩ | ⟨q, rest, _, _, hrun⟩ | ⟨_, hrun⟩ | ⟨_, _, hrun⟩
  · simp at hout
  · exact runRequest_errorKept (s := s.latch q rest) hrun hout hr
  · exact runOutgoing_errorKept hrun hout hr
  · exact runRequest_errorKept hrun hout hr

/-- Settles O40: a step without a reset runs a request or the frame in TX, and the error either ends with
keeps MODE, DEV_ADDR and the rest of the stream. -/
theorem errorsKeepTheSession : Obligations.ErrorsKeepTheSession := by
  refine ⟨fun i s t e h hout => exec_errorKept h hout e.status_ne_zero, fun s t r hp h hout hr => ?_⟩
  rcases step_next h with ⟨l, m, ps, hreset, _⟩ | ⟨ps, hb⟩
  · exact absurd hreset (hp l m ps)
  · exact blockStep_errorKept (s := { s with platform := ps }) hb hout hr

/-! ## No step of a run stops the model -/

/-- The model does not stop in the procedure. -/
def Flow.proceeds {α : Type} : Flow α → Prop
  | .run _ _ => True
  | .wait _ => True
  | .err _ _ => True
  | .stop _ => False

theorem Flow.proceeds_bind {α β : Type} {x : Flow α} {f : α → State → Flow β} (hx : x.proceeds)
    (hf : ∀ a u, (f a u).proceeds) : (x.bind f).proceeds := by
  cases x with
  | run a u => exact hf a u
  | wait u => trivial
  | err e u => trivial
  | stop g => exact hx

/-- An operation in which the model does not stop has a next state: its response, or the state it waits
in. -/
theorem Flow.proceeds.finish {x : Flow Result} (hx : x.proceeds) : ∃ t, x.finish = .next t := by
  cases x with
  | run r u => exact ⟨_, rfl⟩
  | wait u => exact ⟨_, rfl⟩
  | err e u => exact ⟨_, rfl⟩
  | stop g => exact hx.elim

theorem rxRead_proceeds (w : Transaction) (n : Nat) (s : State) : (rxRead w n s).proceeds := by
  rcases rxRead_cases w n s with
    ⟨_, _, _, h⟩ | ⟨_, _, _, h⟩ | ⟨_, _, _, h⟩ | ⟨_, _, h⟩ | ⟨_, h⟩ <;> rw [h] <;> trivial

/-- RECV never stops the model: each of its reads has an answer or waits for one, and what it finds wrong
in the bytes is an error of the block (40_frame_codec R104 to R106). -/
theorem recv_proceeds (s : State) : (recv s).proceeds := by
  rw [recv_eq]
  split
  · refine Flow.proceeds_bind (rxRead_proceeds _ _ s) fun _ _ => ?_
    dsimp only
    split <;> trivial
  split
  · exact Flow.proceeds_bind (rxRead_proceeds _ _ s) fun _ _ => trivial
  split
  · refine Flow.proceeds_bind (rxRead_proceeds _ _ s) fun _ _ => ?_
    dsimp only
    split <;> trivial
  split <;> trivial

/-- The frame of a payload of at most 65535 bytes fits TXBUF (20_memory R41). -/
theorem send_proceeds {p : Packet} (s : State) (hp : p.payload.length ≤ maxPayload) :
    (send p s).proceeds := by
  rw [send_eq p s hp]
  split
  · rcases sendWrite_cases p s with ⟨_, _, h⟩ | ⟨_, _, _, h⟩ | ⟨_, _, h⟩ | ⟨_, h⟩ <;> rw [h] <;>
      trivial
  · trivial

theorem requireMode_proceeds (m : Mode) (op : Byte) (s : State) : (requireMode m op s).proceeds := by
  rcases requireMode_cases m op s with ⟨_, h⟩ | ⟨_, h⟩ <;> rw [h] <;> trivial

theorem interpretWith_proceeds (P : Params) (c : Byte) (a : Option Byte)
    (d : Packet → Except ErrorInfo Result) (p : Packet) (s : State) :
    (interpretWith P c a d p s).proceeds := by
  rcases interpretWith_cases P c a d p s with ⟨_, _, _, h⟩ | ⟨_, _, h⟩ <;> rw [h] <;> trivial

theorem afterSend_proceeds (P : Params) (s : State) : (afterSend P s).proceeds := by
  unfold afterSend
  split
  · exact Flow.proceeds_bind (recv_proceeds s) fun _ _ => interpretWith_proceeds _ _ _ _ _ _
  split
  · exact Flow.proceeds_bind (recv_proceeds s) fun _ _ => interpretWith_proceeds _ _ _ _ _ _
  · trivial

theorem sendFrame_proceeds (P : Params) {p : Packet} (s : State)
    (hp : p.payload.length ≤ maxPayload) : (sendFrame P p s).proceeds := by
  unfold sendFrame
  split
  · exact Flow.proceeds_bind (send_proceeds s hp) fun _ u => afterSend_proceeds P u
  · trivial

/-- SEND as the end of an operation. -/
theorem send_end_proceeds {p : Packet} (s : State) (hp : p.payload.length ≤ maxPayload) :
    ((send p s).bind fun _ u => .run Result.empty u).proceeds :=
  Flow.proceeds_bind (send_proceeds s hp) fun _ _ => trivial

theorem issueFlow_proceeds (cmd addr : Byte) (off : Half) {pl : List Byte} (s : State)
    (hp : pl.length ≤ maxPayload) : (issueFlow cmd addr off pl s).proceeds := by
  unfold issueFlow
  split
  · split
    · exact send_end_proceeds s hp
    · trivial
  · trivial

theorem receiveFlow_proceeds {m : Mode} {op : Byte} {g : Packet → State → Flow Result} (s : State)
    (hg : ∀ p u, (g p u).proceeds) : (receiveFlow m op g s).proceeds := by
  refine Flow.proceeds_bind ?_ fun _ u => Flow.proceeds_bind (recv_proceeds u) hg
  split
  · trivial
  · exact requireMode_proceeds m op s

theorem exchangeFlow_proceeds {op : Byte} {q : State → Packet} {g : Packet → State → Flow Result}
    (s : State) (hq : ∀ u, (q u).payload.length ≤ maxPayload) (hg : ∀ p u, (g p u).proceeds) :
    (exchangeFlow op q g s).proceeds := by
  refine Flow.proceeds_bind ?_ fun _ u => Flow.proceeds_bind (recv_proceeds u) hg
  split
  · trivial
  · exact Flow.proceeds_bind (requireMode_proceeds _ _ s) fun _ u => send_proceeds u (hq u)

/-- A well-formed instruction has a next state in every state: only a payload no frame can carry stops
the model (log entry 14). -/
theorem exec_next {i : Instr} (hw : i.wellFormed = true) (s : State) : ∃ t, exec i s = .next t := by
  have hpl : i.payload.length ≤ maxPayload := of_decide_eq_true hw
  cases i with
  | frameGetDistance | frameStop | frameAcknowledge | frameGetCorrectionCoefficients
  | frameConfigureAddress => exact (sendFrame_proceeds _ s hpl).finish
  | issue => exact (issueFlow_proceeds _ _ _ s hpl).finish
  | awaitResponse =>
    exact (receiveFlow_proceeds (g := fun p u => .run (packetResult p) u) s
      fun _ _ => trivial).finish
  | configureAddress =>
    exact (exchangeFlow_proceeds s (fun _ => Nat.zero_le _) fun _ _ =>
      interpretWith_proceeds _ _ _ _ _ _).finish
  | getCoefficients =>
    exact (exchangeFlow_proceeds (q := fun u => ⟨u.devAddr, _, 0, []⟩) s (fun _ => Nat.zero_le _)
      fun _ _ => interpretWith_proceeds _ _ _ _ _ _).finish
  | beginStream =>
    exact Flow.proceeds.finish (Flow.proceeds_bind (requireMode_proceeds _ _ s) fun _ u =>
      send_end_proceeds u (Nat.zero_le _))
  | stopStream => exact Flow.proceeds.finish (send_end_proceeds s (Nat.zero_le _))
  | receiveFrame =>
    exact (receiveFlow_proceeds s fun _ _ => interpretWith_proceeds _ _ _ _ _ _).finish
  | setDeviceAddress =>
    exact Flow.proceeds.finish (Flow.proceeds_bind (requireMode_proceeds _ _ s) fun _ _ => trivial)

/-- A whole request names a well-formed operation: its payload is as long as a 16-bit field says
(30_encoding R70, R72). -/
theorem wellFormed_of_decodeRequest {r : Request} {i : Instr} (hw : r.whole)
    (h : decodeRequest r = .ok i) : i.wellFormed = true := by
  obtain rfl := requestOf_of_decodeRequest hw h
  exact decide_eq_true (requestOf_payload i ▸ hw.payload_le)

/-- The operations that receive carry no payload (30_encoding R70). -/
theorem wellFormed_of_rxOk {s : State} {i : Instr} (h : s.rxOk = true) (hi : s.requested = .ok i) :
    i.wellFormed = true := by
  obtain ⟨j, hj, hrecv⟩ := State.rxOk_requested h
  obtain rfl : j = i := Except.ok.inj (hj.symm.trans hi)
  obtain rfl | rfl | rfl | ⟨expected, rfl⟩ := hrecv <;> rfl

/-- A request that names no operation, or a well-formed one, has a next state. -/
theorem runRequest_proceeds {s : State} (hw : ∀ i, s.requested = .ok i → i.wellFormed = true) :
    ∃ t, runRequest s = .next t := by
  cases hd : decodeRequest s.req with
  | ok i =>
    rw [runRequest_of_ok hd]
    exact exec_next (hw i (requested_ok.mpr hd)) s
  | error e => exact ⟨_, runRequest_of_error hd⟩

/-- In TX of a run TXBUF holds the frame of the packet due, which is no longer than a request can ask
for. -/
theorem runOutgoing_proceeds {s : State} (h : s.txOk = true) : ∃ t, runOutgoing s = .next t := by
  obtain ⟨p, _, hk, _, hp, hf⟩ := (State.txOk_iff s).mp h
  rw [runOutgoing_eq hk hp hf]
  exact (sendFrame_proceeds _ s hp).finish

/-- With the invariant the block's step has a next state in READY, in TX and where a read is
outstanding; it begins in no other phase. -/
theorem blockStep_proceeds {s : State} (hinv : s.inv = true) : ∃ t, blockStep s = .next t := by
  obtain hready | htx | ⟨hrx, hok⟩ := State.inv_phase hinv
  · cases hr : takeRequest s.hostIn with
    | none => exact ⟨s, by simp only [blockStep, hready, hr]⟩
    | some taken =>
      obtain ⟨r, rest⟩ := taken
      rw [blockStep_accepts hready hr]
      refine runRequest_proceeds fun i hi => ?_
      exact wellFormed_of_decodeRequest (takeRequest_eq_some_iff.mp hr).1 (requested_ok.mp hi)
  · rw [blockStep_tx htx]
    have hph := ((State.inv_iff s).mp hinv).2
    simp only [State.phaseOk, htx] at hph
    exact runOutgoing_proceeds hph
  · have hresumes : blockStep s = runRequest s := by
      obtain h | h | h := hrx <;> simp only [blockStep, h]
    rw [hresumes]
    exact runRequest_proceeds fun i hi => wellFormed_of_rxOk hok hi

/-- Settles O56: a reset has a next state, and the platform's input is no part of the invariant, so the
block's step has one too. -/
theorem invariantStepNeverStops : Obligations.InvariantStepNeverStops := by
  intro s hinv
  unfold step
  split
  · exact blockStep_proceeds hinv
  · exact blockStep_proceeds hinv
  · exact ⟨_, rfl⟩

end Sys2Proof.Machine

/-! # The family 70_reset_and_hazards: reset and the wait

First the platform's input and reset (O48, O52, O53, O54). Then the transaction that is not answered
(O51), and the distance frame left over after Stop (O36). -/

namespace Sys2Proof.Machine

/-! ## The platform's input -/

/-- Settles O48: the entry is read off, and the rest is the block's step. -/
theorem platformRunIsTransparent : Obligations.PlatformRunIsTransparent := by
  intro s ps hp
  rw [step, hp]

theorem step_reset {s : State} {l : Bool} {n : Nat} {ps : List PlatformInput}
    (hp : s.platform = .reset l n :: ps) :
    step s = .next (State.applyReset { s with platform := ps } l n) := by
  rw [step, hp]

/-! ## Reset -/

/-- Settles O52: they are fields of the reset state. -/
theorem resetValues : Obligations.ResetValues := ⟨rfl, rfl, rfl⟩

/-- Settles O54: reset is in READY, where the invariant asks for the buffers alone, and empties both. -/
theorem invariantAtReset : Obligations.InvariantAtReset := State.inv_of_ready rfl rfl

/-- READY with no whole request offered accepts nothing, and neither does any other phase
(42_session_ops R165). -/
theorem State.accept_nothing {s : State} (h : s.phase ≠ .ready ∨ takeRequest s.hostIn = none) :
    s.accept = s := by
  unfold State.accept
  split
  case h_1 hs hr =>
    obtain h | h := h
    · exact absurd hs h
    · cases hr.symm.trans h
  case h_2 => rfl

theorem State.accept_request {s : State} {r : Request} {rest : List Byte} (hs : s.phase = .ready)
    (hr : takeRequest s.hostIn = some (r, rest)) : s.accept = s.latch r rest := by
  simp only [State.accept, hs, hr]

/-- Acceptance touches REQ, PHASE and the host port's input only (42_session_ops R165). -/
theorem State.accept_frame (s : State) :
    s.accept.link = s.link ∧ s.accept.rxStream = s.rxStream ∧ s.accept.hostOut = s.hostOut
      ∧ s.accept.answers = s.answers ∧ s.accept.platform = s.platform := by
  obtain h | ⟨r, rest, _, h⟩ := s.accept_cases <;> rw [h] <;> exact ⟨rfl, rfl, rfl, rfl, rfl⟩

/-- A request just latched has no transaction outstanding yet (42_session_ops R166). -/
theorem State.accept_waiting (s : State) : s.accept.waiting = s.waiting := by
  unfold State.accept
  split
  case h_1 hs _ => rw [State.waiting, State.waiting, State.latch_phase, hs]
  case h_2 => rfl

section Abandon

variable {s : State} (n : Nat)

theorem State.abandon_tx (hs : s.phase = .tx) :
    s.abandon n = { s with link := s.link ++ s.txFrame.take n } := by
  simp only [State.abandon, hs]

theorem State.abandon_rxHeader (hs : s.phase = .rxHeader) :
    s.abandon n = { s with rxStream := s.rxStream.drop (min n 10) } := by
  simp only [State.abandon, hs]

theorem State.abandon_rxPayload (hs : s.phase = .rxPayload) :
    s.abandon n = { s with rxStream := s.rxStream.drop (min n s.declLen.toNat) } := by
  simp only [State.abandon, hs]

theorem State.abandon_rxChecksum (hs : s.phase = .rxChecksum) :
    s.abandon n = { s with rxStream := s.rxStream.drop (min n 1) } := by
  simp only [State.abandon, hs]

/-- With no transaction outstanding there is none to abandon. -/
theorem State.abandon_of_not_waiting (h : s.waiting = false) : s.abandon n = s := by
  unfold State.waiting at h
  unfold State.abandon
  cases hs : s.phase with
  | ready | check | interpret => rfl
  | tx | rxHeader | rxPayload | rxChecksum =>
    rw [hs] at h
    cases h

/-- What abandoning a transaction leaves as it was, whichever phase names it (70_reset R261). -/
theorem State.abandon_frame (s : State) :
    (s.abandon n).hostIn = s.hostIn ∧ (s.abandon n).hostOut = s.hostOut
      ∧ (s.abandon n).answers = s.answers ∧ (s.abandon n).platform = s.platform := by
  unfold State.abandon
  split <;> exact ⟨rfl, rfl, rfl, rfl⟩

end Abandon

section Reset

variable {s : State} (l : Bool) (n : Nat)

theorem State.applyReset_unlatched (s : State) :
    s.applyReset false n = (s.abandon n).resetRegisters := rfl

/-- A reset that finds READY's request latched is a reset right after the acceptance (log entry 11). -/
theorem State.applyReset_latched (s : State) :
    s.applyReset true n = s.accept.applyReset false n := rfl

/-- Where nothing is accepted, the free bit makes no difference. -/
theorem State.applyReset_of_accept_nothing (h : s.accept = s) :
    s.applyReset l n = (s.abandon n).resetRegisters := by
  cases l with
  | false => rfl
  | true => rw [State.applyReset_latched, h, State.applyReset_unlatched]

/-- What a reset leaves in every phase: the session registers at their reset values, the responses
returned and the answers to come as they were (70_reset R260 to R262). -/
theorem State.applyReset_session (s : State) :
    (s.applyReset l n).mode = .idle ∧ (s.applyReset l n).devAddr = 0x01
      ∧ (s.applyReset l n).phase = .ready ∧ (s.applyReset l n).hostOut = s.hostOut
      ∧ (s.applyReset l n).answers = s.answers ∧ (s.applyReset l n).platform = s.platform := by
  cases l with
  | false =>
    obtain ⟨_, hframe⟩ := s.abandon_frame n
    exact ⟨rfl, rfl, rfl, hframe⟩
  | true =>
    obtain ⟨_, _, hout, hans, hplat⟩ := s.accept_frame
    obtain ⟨_, hout', hans', hplat'⟩ := s.accept.abandon_frame n
    exact ⟨rfl, rfl, rfl, hout'.trans hout, hans'.trans hans, hplat'.trans hplat⟩

/-- A reset with no transaction outstanding sends and drains nothing (70_reset R262). -/
theorem State.applyReset_of_not_waiting (h : s.waiting = false) :
    (s.applyReset l n).link = s.link ∧ (s.applyReset l n).rxStream = s.rxStream := by
  cases l with
  | false =>
    rw [State.applyReset_unlatched, State.abandon_of_not_waiting n h]
    exact ⟨rfl, rfl⟩
  | true =>
    obtain ⟨hlink, hstream, _⟩ := s.accept_frame
    rw [State.applyReset_latched, State.applyReset_unlatched,
      State.abandon_of_not_waiting n (s.accept_waiting.trans h)]
    exact ⟨hlink, hstream⟩

/-- A reset that finds no request latched takes none from the host port. -/
theorem State.applyReset_hostIn (h : l = false ∨ s.accept = s) :
    (s.applyReset l n).hostIn = s.hostIn := by
  have hunlatched : s.applyReset l n = (s.abandon n).resetRegisters := by
    obtain rfl | h := h
    · rfl
    · exact State.applyReset_of_accept_nothing l n h
  obtain ⟨hin, _⟩ := s.abandon_frame n
  rw [hunlatched]
  exact hin

/-- A request that READY has latched is lost to the reset (70_reset R261; log entry 11). -/
theorem State.applyReset_latched_hostIn {r : Request} {rest : List Byte} (hs : s.phase = .ready)
    (hr : takeRequest s.hostIn = some (r, rest)) : (s.applyReset true n).hostIn = rest := by
  obtain ⟨hin, _⟩ := (s.latch r rest).abandon_frame n
  rw [State.applyReset_latched, State.applyReset_unlatched, State.accept_request hs hr]
  exact hin

end Reset

/-- Settles O53: the step is the reset, which outside READY abandons the transaction PHASE names, and in
READY what it may have latched. -/
theorem platformResetAtAnyTime : Obligations.PlatformResetAtAnyTime := by
  intro s l n ps hp
  let u : State := { s with platform := ps }
  obtain ⟨hmode, haddr, hphase, hout, hans, hplat⟩ := u.applyReset_session l n
  have hbusy (hs : u.phase ≠ .ready) : u.applyReset l n = (u.abandon n).resetRegisters :=
    State.applyReset_of_accept_nothing l n (State.accept_nothing (.inl hs))
  refine ⟨u.applyReset l n, step_reset hp, hmode, haddr, hphase, hout, hans, hplat,
    State.applyReset_of_not_waiting (s := u) l n, fun hs => ?_, fun hs => ?_, fun hs => ?_,
    fun hs => ?_, fun h => ?_, fun hs hl => ⟨fun hr => ?_, fun r rest hr => ?_⟩⟩
  · rw [hbusy (ne_of_eq_of_ne hs Phase.noConfusion), State.abandon_tx (s := u) n hs]
    exact ⟨rfl, rfl⟩
  · rw [hbusy (ne_of_eq_of_ne hs Phase.noConfusion), State.abandon_rxHeader (s := u) n hs]
    exact ⟨rfl, rfl⟩
  · rw [hbusy (ne_of_eq_of_ne hs Phase.noConfusion), State.abandon_rxPayload (s := u) n hs]
    exact ⟨rfl, rfl⟩
  · rw [hbusy (ne_of_eq_of_ne hs Phase.noConfusion), State.abandon_rxChecksum (s := u) n hs]
    exact ⟨rfl, rfl⟩
  · exact State.applyReset_hostIn (s := u) l n
      (h.symm.imp_right fun hs => State.accept_nothing (.inl hs))
  · exact State.applyReset_hostIn (s := u) l n (.inr (State.accept_nothing (.inr hr)))
  · rw [hl]
    exact State.applyReset_latched_hostIn (s := u) n hs hr

/-! ## The transaction that is not answered -/

/-- The outstanding transaction gets no answer in this step, and the wait changes nothing but the list of
answers to come (70_reset R266; log entries 2 and 3). -/
def State.unanswered (s t : State) : Prop :=
  (s.answers = [] ∧ t = s) ∨ ∃ as, s.answers = .silent :: as ∧ t = { s with answers := as }

section Unanswered

variable {s t : State}

theorem sendWrite_of_unanswered (p : Packet) (h : s.unanswered t) : sendWrite p s = .wait t := by
  obtain ⟨ha, rfl⟩ | ⟨as, ha, rfl⟩ := h
  · exact sendWrite_unanswered p ha
  · exact sendWrite_silent p ha

theorem rxRead_of_unanswered (w : Transaction) (n : Nat) (h : s.unanswered t) :
    rxRead w n s = .wait t := by
  obtain ⟨ha, rfl⟩ | ⟨as, ha, rfl⟩ := h <;> simp only [rxRead, ha]

/-- RECV waits with the read PHASE names, whichever it is (42_session_ops R155). -/
theorem recv_of_unanswered
    (hs : s.phase = .rxHeader ∨ s.phase = .rxPayload ∨ s.phase = .rxChecksum)
    (h : s.unanswered t) : recv s = .wait t := by
  obtain hs | hs | hs := hs
  · rw [recv_rxHeader hs, recvHeader, rxRead_of_unanswered _ _ h]
    rfl
  · rw [recv_rxPayload hs, recvPayload, rxRead_of_unanswered _ _ h]
    rfl
  · rw [recv_rxChecksum hs, recvChecksum, rxRead_of_unanswered _ _ h]
    rfl

/-- In TX of a run the wire command waits with its TxWrite. -/
theorem runOutgoing_of_unanswered (hs : s.phase = .tx) (hok : s.txOk = true) (h : s.unanswered t) :
    runOutgoing s = .next t := by
  obtain ⟨p, _, hk, hl, hp, hf⟩ := (State.txOk_iff s).mp hok
  rw [runOutgoing_eq hk hp hf, sendFrame_of_legal _ hl, send_eq p s hp, if_pos hs,
    sendWrite_of_unanswered p h]
  rfl

/-- While a read is outstanding in a run, the operation in REQ waits with RECV. -/
theorem runRequest_of_unanswered
    (hs : s.phase = .rxHeader ∨ s.phase = .rxPayload ∨ s.phase = .rxChecksum) (hok : s.rxOk = true)
    (h : s.unanswered t) : runRequest s = .next t := by
  obtain ⟨i, hreq, hi⟩ := State.rxOk_requested hok
  obtain ⟨g, hg⟩ := exists_resumes hi
  rw [runRequest_of_ok (requested_ok.mp hreq)]
  exact hg.wait (State.receiving_of_phase hs) (recv_of_unanswered hs h)

/-- In a run, a transaction that is not answered holds the block's step in TX and in each of the three
read phases. -/
theorem blockStep_of_unanswered (hinv : s.inv = true) (hw : s.waiting = true)
    (h : s.unanswered t) : blockStep s = .next t := by
  obtain hready | htx | ⟨hrx, hok⟩ := State.inv_phase hinv
  · rw [State.waiting, hready] at hw
    cases hw
  · have hph := ((State.inv_iff s).mp hinv).2
    rw [State.phaseOk, htx] at hph
    rw [blockStep_tx htx]
    exact runOutgoing_of_unanswered htx hph h
  · have hphase : s.phase ≠ .ready ∧ s.phase ≠ .tx := by
      obtain hr | hr | hr := hrx <;> rw [hr] <;> exact ⟨Phase.noConfusion, Phase.noConfusion⟩
    rw [blockStep_resumes hphase.1 hphase.2]
    exact runRequest_of_unanswered hrx hok h

end Unanswered

/-- Settles O51: no answer left and a silent answer are the two ways a transaction is not answered. -/
theorem unansweredTransactionHoldsTheBlock : Obligations.UnansweredTransactionHoldsTheBlock := by
  intro s hinv hp hw
  rw [step_eq_blockStep hp]
  exact ⟨fun ha => blockStep_of_unanswered hinv hw (.inl ⟨ha, rfl⟩),
    fun as ha => blockStep_of_unanswered hinv hw (.inr ⟨as, ha, rfl⟩)⟩

/-! ## The residual frame -/

/-- Settles O36: by O28, with routing unchecked the length alone decides, and a distance payload has the
18 bytes of calibration data just where it holds seven samples. -/
theorem residualFrameReadAsCalibration : Obligations.ResidualFrameReadAsCalibration := by
  intro P s p count rest as hoff hm hstart hlen hp hr ha
  have hpass : ¬ (P.checkResponseRouting = true ∧ (p.cmd ≠ 0x12 ∨ p.addr ≠ s.devAddr)) :=
    fun ⟨hon, _⟩ => Bool.false_ne_true (hoff.symm.trans hon)
  have h18 : p.payload.length = 18 ↔ count = 7 := by omega
  refine ⟨_, getCoefficientsChecksInOrder P s p rest as hm hstart hp hr ha, rfl, fun hc => ?_,
    fun hc => ?_⟩ <;> rw [if_neg hpass]
  · rw [if_neg (not_not_intro (h18.mpr hc))]
    exact ⟨_, _, _, _, _, rfl⟩
  · rw [if_pos (mt h18.mp hc)]
    rfl

end Sys2Proof.Machine
